-- ==== Sys2Proof/Word.lean ====
section
/-!
DEFINITION. The word types of the CORE: the values the spec treats as bits.
-/

namespace Sys2Proof

/-- One octet: an input byte, a byte of `acc` or of `frm_buf` (10_state.md R19, R27). -/
abbrev Byte := BitVec 8

/-- The 11-bit raw value of a channel (30_encoding.md R69). -/
abbrev RawValue := BitVec 11

/-- One channel output register, `OUT_W` = 12 bits (00_scope.md R10, 10_state.md R19). -/
abbrev ChannelValue := BitVec 12

/-- The channel stream `S`, 176 bits (20_memory.md R49). -/
abbrev ChannelStream := BitVec 176

end Sys2Proof
end

