-- ==== Sys2Proof/Config.lean ====
section
/-!
DEFINITION. What is fixed for one CORE: the constants of the spec, the open parameter `ACC_CAP`, and the free values
(constants with no body: nothing can be proved of what they are).
-/

namespace Sys2Proof

/-! ## Fixed constants (00_scope.md R9) -/

/-- `FRAME_MARKER` = 0x7E. -/
abbrev Config.frameMarker : Byte := 0x7E#8
/-- `ESCAPE_CHAR` = 0x7D. -/
abbrev Config.escapeChar : Byte := 0x7D#8
/-- `ESCAPE_MASK` = 0x20. -/
abbrev Config.escapeMask : Byte := 0x20#8
/-- `CONTROL_TYPE` = 0x00, the frame type of a control frame. -/
abbrev Config.controlType : Byte := 0x00#8
/-- `NUM_CH` = 16 channels. -/
abbrev Config.numChannels : Nat := 16
/-- `CH_BITS` = 11 bits a channel. -/
abbrev Config.channelBits : Nat := 11
/-- `PAYLOAD_BYTES` = 22 bytes, 176 bits. -/
abbrev Config.payloadBytes : Nat := 22
/-- `CH_MASK` = 0x07FF, used by the shifter form (42_channel_decoder.md R110). -/
abbrev Config.channelMask : BitVec 24 := 0x0007FF#24
/-- `MIN_VIEW_LEN` = 23 bytes: 1 type byte and 22 payload bytes. -/
abbrev Config.minViewLen : Nat := 23
/-- `SCALE_NUM` = 5. -/
abbrev Config.scaleNum : Nat := 5
/-- `SCALE_DEN` = 8. -/
abbrev Config.scaleDen : Nat := 8
/-- `SCALE_OFFSET` = 880. -/
abbrev Config.scaleOffset : Nat := 880

/-! ## The open parameter (00_scope.md R10 to R12, 93_implementation_defined.md K11) -/

/-- How far `ACC_CAP` exceeds its minimum of 24: open (DESIGN CHOICE of the form, log entry 6; safe). -/
opaque Config.accCapExtra : Nat

/-- `ACC_CAP`, the capacity of the accumulator and of the frame buffer in bytes: any natural number of at least 24
(00_scope.md R10, R12). -/
def Config.accCap : Nat := Config.accCapExtra + 24

/-- `LEN_W`, the least width `w` with `2^w > ACC_CAP` (00_scope.md R10): the width of `acc_len` and `frm_len`. -/
def Config.lenW : Nat := Nat.log2 Config.accCap + 1

/-- The registers `acc_len` and `frm_len`, and the port `frm_len`: `LEN_W` bits (00_scope.md R10, 10_state.md R19, R28). -/
abbrev LenWord := BitVec Config.lenW

/-- `2^LEN_W > ACC_CAP` (00_scope.md R10): a length register holds every length up to the capacity. -/
theorem Config.accCap_lt : Config.accCap < 2 ^ Config.lenW := Nat.lt_log2_self

/-! ## Free values -/

/-- What channel register `i` holds after reset number `n`: unspecified (10_state.md R39, R40; 93_implementation_defined.md
K15). DESIGN CHOICE, log entry 3. -/
opaque Config.freeChannel (n i : Nat) : ChannelValue

/-- The 16 unspecified channel values after reset number `n`. -/
def Config.freeChannels (n : Nat) : Vector ChannelValue 16 :=
  Vector.ofFn fun i : Fin 16 => Config.freeChannel n i.val

/-- What a reader of the frame port finds in byte `k` when that byte has no value: "any value" (20_memory.md R46, R47;
93_implementation_defined.md K14). DESIGN CHOICE, log entry 5. -/
opaque Config.freeFrameByte (n k : Nat) : Byte

/-- The level of the `cfg_adjust` pin in a cycle for which the input trace names none (10_state.md R31: the pin has no
reset value). DESIGN CHOICE, log entry 8. -/
opaque Config.freeAdjust (n : Nat) : Bool

/-- What stands on `in_data` in a cycle that offers no byte: "ignored when `in_valid = 0`" (10_state.md R27).
DESIGN CHOICE, log entry 8. -/
opaque Config.freeInData (n : Nat) : Byte

end Sys2Proof
end

