-- ==== Sys2Proof/Syntax.lean ====
section
/-!
DEFINITION. The operations of the CORE: one constructor for each row of spec/opcode_table.json (30_encoding.md R71), and
the forms in which an operation is presented to the CORE (its encodings).
-/

namespace Sys2Proof

/-- The operations of the CORE, in the order of spec/opcode_table.json. -/
inductive Instr where
  /-- `MARKER`, the byte 0x7E in any state (40_deframer.md R78). -/
  | marker
  /-- `ESCAPE`, the byte 0x7D with no escape pending (40_deframer.md R79). -/
  | escape
  /-- `DATA`, any other byte with no escape pending (40_deframer.md R80). -/
  | data (d : Byte)
  /-- `ESCAPED`, any byte but 0x7E with an escape pending; `d` is the byte as received (40_deframer.md R81). -/
  | escaped (d : Byte)
  /-- `CLR`, the clear pin (40_deframer.md R86). -/
  | clr
  /-- `RST`, the reset pin (70_reset_and_hazards.md R141). -/
  | rst
  /-- `ROUTE`, a registered control frame (41_router.md R94). -/
  | route
  /-- `SKIP`, any other registered frame (41_router.md R96). -/
  | skip
  /-- `DECODE` of a view that passes both checks, with the sampled `cfg_adjust` (42_channel_decoder.md R105). -/
  | decodeOk (view : List Byte) (adjust : Bool)
  /-- `DECODE` of a view of fewer than 23 bytes (42_channel_decoder.md R106). -/
  | decodeTooShort (view : List Byte)
  /-- `DECODE` of a long enough view of another type (42_channel_decoder.md R107). -/
  | decodeBadType (view : List Byte)
deriving DecidableEq, Repr

/-- The input ports of one clock cycle (10_state.md R27); `clk` is the step itself. -/
structure Pins where
  /-- synchronous reset, active high -/
  rst : Bool
  /-- synchronous clear of the DEFRAMER, active high -/
  clr : Bool
  /-- a byte is offered in this cycle -/
  inValid : Bool
  /-- the byte; ignored when `inValid` is false -/
  inData : Byte
  /-- 1 scaled, 0 raw -/
  cfgAdjust : Bool
deriving DecidableEq, Repr

/-- An operation as it is presented to the CORE, one constructor for each "format" of spec/opcode_table.json. -/
inductive Code where
  /-- "byte": the byte on `in_data` and the escape flag it meets (30_encoding.md R59). -/
  | byte (esc : Bool) (d : Byte)
  /-- "control": the two control pins. -/
  | control (rst clr : Bool)
  /-- "frame": `frm_len` and `frm_buf[1]` in a cycle with `frm_valid = 1`; `byte1` is not looked at when `len < 2`. -/
  | frame (len : Nat) (byte1 : Byte)
  /-- "view": the view and `cfg_adjust`. -/
  | view (bytes : List Byte) (adjust : Bool)
deriving DecidableEq, Repr

/-- Why a presented code is no operation. No byte value is ever rejected (30_encoding.md R62). -/
inductive DecodeReject where
  /-- Neither control pin is high: the cycle holds no control operation. -/
  | noControlInput
  /-- No byte is offered and no control pin is high: the DEFRAMER takes no step (40_deframer.md R82). -/
  | noByteOffered
deriving DecidableEq, Repr

/-- One entry of an input program in the notation of the spec (30_encoding.md R73). -/
inductive StreamItem where
  /-- a byte of the stream -/
  | byte (d : Byte)
  /-- `RST`: one cycle with that pin high and no byte -/
  | rst
  /-- `CLR`: one cycle with that pin high and no byte -/
  | clr
deriving DecidableEq, Repr

end Sys2Proof
end

