-- ==== Sys2Proof/WellFormed.lean ====
section
/-!
DEFINITION. Which terms of `Instr` are operations of the CORE: the "condition" column of spec/opcode_table.json, as far as
it is about the operation's own operands.
-/

namespace Sys2Proof

/-- The operand of `DATA` is neither the marker nor the escape character (40_deframer.md R80). -/
def dataByteOk (d : Byte) : Bool :=
  d != Config.frameMarker && d != Config.escapeChar

/-- The operand of `ESCAPED` is not the marker; the escape character is allowed (40_deframer.md R81). -/
def escapedByteOk (d : Byte) : Bool :=
  d != Config.frameMarker

/-- The view holds a type byte and 22 payload bytes (42_channel_decoder.md R106). -/
def viewLongEnough (view : List Byte) : Bool :=
  decide (Config.minViewLen ≤ view.length)

/-- The first byte of the view is the control type (42_channel_decoder.md R107). -/
def viewIsControl (view : List Byte) : Bool :=
  view.head? == some Config.controlType

/-- A term of `Instr` that some row of the opcode table describes. -/
def Instr.wellFormed : Instr → Bool
  | .marker => true
  | .escape => true
  | .data d => dataByteOk d
  | .escaped d => escapedByteOk d
  | .clr => true
  | .rst => true
  | .route => true
  | .skip => true
  | .decodeOk view _ => viewLongEnough view && viewIsControl view
  | .decodeTooShort view => !viewLongEnough view
  | .decodeBadType view => viewLongEnough view && !viewIsControl view

end Sys2Proof
end

