-- ==== Sys2Proof/Decode.lean ====
section
/-!
DEFINITION. The decoder (which operation a code stands for), the encoder, the transmitter's stuffing that the DEFRAMER
inverts, and the numbering of an input cycle's bits as one word.
-/

namespace Sys2Proof

/-! ## Decoding -/

/-- `classify(esc, d)` of 30_encoding.md R61: the marker is tested first, so it is a marker in every state. -/
def decodeByte (esc : Bool) (d : Byte) : Instr :=
  if d = Config.frameMarker then .marker
  else if d = Config.escapeChar ∧ esc = false then .escape
  else if esc = true then .escaped d
  else .data d

/-- The control pins: `rst` takes priority over `clr` (70_reset_and_hazards.md R142). -/
def decodeControl (rst clr : Bool) : Except DecodeReject Instr :=
  if rst = true then .ok .rst
  else if clr = true then .ok .clr
  else .error .noControlInput

/-- The ROUTER's selection (41_router.md R94, R96, R97): a control frame has at least two bytes and byte 1 is 0x00. -/
def decodeFrame (len : Nat) (byte1 : Byte) : Instr :=
  if 2 ≤ len ∧ byte1 = Config.controlType then .route else .skip

/-- The DECODER's outcome for a view: length first, then type (42_channel_decoder.md R106 to R108). -/
def decodeView (view : List Byte) (adjust : Bool) : Instr :=
  if view.length < Config.minViewLen then .decodeTooShort view
  else if view.head? = some Config.controlType then .decodeOk view adjust
  else .decodeBadType view

/-- The operation a code stands for. Only the absence of any operation is rejected. -/
def decode : Code → Except DecodeReject Instr
  | .byte esc d => .ok (decodeByte esc d)
  | .control rst clr => decodeControl rst clr
  | .frame len byte1 => .ok (decodeFrame len byte1)
  | .view bytes adjust => .ok (decodeView bytes adjust)

/-- The DEFRAMER-side operation of a cycle with these input pins: `rst` over `clr` over an offered byte
(60_exceptions.md R135); without any of them there is none (40_deframer.md R82). -/
def decodePins (esc : Bool) (p : Pins) : Except DecodeReject Instr :=
  if p.rst = true ∨ p.clr = true then decode (.control p.rst p.clr)
  else if p.inValid = true then decode (.byte esc p.inData)
  else .error .noByteOffered

/-! ## Encoding -/

/-- A code that stands for the operation, from the "encoding" column of spec/opcode_table.json. Where a row admits several
codes (`MARKER` meets either escape flag, `ROUTE` and `SKIP` any frame of their kind, a failing view either `cfg_adjust`)
one of them is written; DESIGN CHOICE, log entry 18. -/
def encode : Instr → Code
  | .marker => .byte false Config.frameMarker
  | .escape => .byte false Config.escapeChar
  | .data d => .byte false d
  | .escaped d => .byte true d
  | .clr => .control false true
  | .rst => .control true false
  | .route => .frame 2 Config.controlType
  | .skip => .frame 2 0x01#8
  | .decodeOk view adjust => .view view adjust
  | .decodeTooShort view => .view view false
  | .decodeBadType view => .view view false

/-! ## Streams (30_encoding.md R64, R73, R74) -/

/-- `STUFFED(v)` (30_encoding.md R64, R74): the marker and the escape character go out as the escape character and the
byte XORed with the mask, every other byte as itself. -/
def stuffByte (v : Byte) : List Byte :=
  if v = Config.frameMarker ∨ v = Config.escapeChar then [Config.escapeChar, v ^^^ Config.escapeMask] else [v]

/-- `stuff` of 30_encoding.md R64 on a byte list. -/
def stuff : List Byte → List Byte
  | [] => []
  | v :: vs => stuffByte v ++ stuff vs

/-- `FRAME(bs)` = `7E ++ stuff(bs) ++ 7E` (30_encoding.md R74). -/
def frameStream (bs : List Byte) : List Byte :=
  Config.frameMarker :: (stuff bs ++ [Config.frameMarker])

/-- The input cycle an entry of a program stands for (30_encoding.md R73), `cfg_adjust` and the ignored `in_data` given. -/
def StreamItem.pins (adjust : Bool) (ignored : Byte) : StreamItem → Pins
  | .byte d => { rst := false, clr := false, inValid := true, inData := d, cfgAdjust := adjust }
  | .rst => { rst := true, clr := false, inValid := false, inData := ignored, cfgAdjust := adjust }
  | .clr => { rst := false, clr := true, inValid := false, inData := ignored, cfgAdjust := adjust }

/-! ## One input cycle as a numbered word (log entry 10)

Bits 7..0 are the byte on `in_data`, as the byte rows of the table number them. The table gives the escape flag and the
control pins no bit of that byte; the model numbers them on: bit 8 is the escape flag the byte meets, bit 9 is `clr`,
bit 10 is `rst`. An 8-bit word is therefore a byte that meets no pending escape. -/

/-- The escape flag in an input word. -/
def wordEsc (v : Nat) : Bool := v.testBit 8

/-- The `clr` pin in an input word. -/
def wordClr (v : Nat) : Bool := v.testBit 9

/-- The `rst` pin in an input word. -/
def wordRst (v : Nat) : Bool := v.testBit 10

/-- The input pins an input word stands for; a control cycle offers no byte (30_encoding.md R73). -/
def wordPins (v : Nat) (adjust : Bool) : Pins :=
  { rst := wordRst v, clr := wordClr v, inValid := !(wordRst v || wordClr v),
    inData := BitVec.ofNat 8 v, cfgAdjust := adjust }

/-- The bits of a table word, or none where it holds no bit at all or a bit above bit 10. -/
def tableWordBits (nbits w : Nat) : Option Nat :=
  if nbits = 0 ∨ 2048 ≤ w % 2 ^ nbits then none else some (w % 2 ^ nbits)

/-- The operation the decoder reads from an input word of `nbits` bits (bits above `nbits` are 0). -/
def decodeTableWord (nbits w : Nat) : Option Instr :=
  match tableWordBits nbits w with
  | none => none
  | some v => (decodePins (wordEsc v) (wordPins v false)).toOption

/-- The input word of a byte-level or control operation: its width in bits and its value. A frame- or view-level operation
is no input word. -/
def encodeWord : Instr → Option (Nat × Nat)
  | .marker => some (8, Config.frameMarker.toNat)
  | .escape => some (8, Config.escapeChar.toNat)
  | .data d => some (8, d.toNat)
  | .escaped d => some (16, 256 + d.toNat)
  | .clr => some (16, 512)
  | .rst => some (16, 1024)
  | .route => none
  | .skip => none
  | .decodeOk _ _ => none
  | .decodeTooShort _ => none
  | .decodeBadType _ => none

end Sys2Proof
end

