-- ==== Sys2Proof/Machine/State.lean ====
section
/-!
DEFINITION. The state of the CORE as plain data: every register of 10_state.md R19, the input ports of R27, the rest of
the run's input trace, and the reasons a step or a port read can stop.
-/

namespace Sys2Proof.Machine

/-- A byte space (20_memory.md R41): the bytes that have a value, by rising address. A byte that is not listed has no
value (10_state.md R40; log entry 4). -/
abbrev Memory := List Host.Cell

/-- `Frame{bytes, ovf}` (00_scope.md R14): a frame's bytes and its overflow mark. -/
structure Frame where
  bytes : List Byte
  ovf : Bool
deriving DecidableEq, Repr

/-- The architectural state (10_state.md R19), the pins of the coming clock cycle and the cycles after it. -/
structure State where
  /-- escape pending (10_state.md R20) -/
  esc : Bool
  /-- the accumulator's bytes (10_state.md R22) -/
  acc : Memory
  /-- the accumulator's length (10_state.md R22) -/
  accLen : LenWord
  /-- a byte of the frame being collected was dropped (10_state.md R22) -/
  accOvf : Bool
  /-- the bytes of the last frame emitted (10_state.md R25) -/
  frmBuf : Memory
  /-- its length (10_state.md R25) -/
  frmLen : LenWord
  /-- its overflow mark (10_state.md R25) -/
  frmOvf : Bool
  /-- a frame was emitted at the last edge (10_state.md R25) -/
  frmValid : Bool
  /-- the channel registers (10_state.md R26) -/
  ch : Vector ChannelValue 16
  /-- a control frame has been decoded without error since reset (10_state.md R26) -/
  chLoaded : Bool
  /-- the DECODER ran in the cycle before the last edge (10_state.md R26) -/
  decDone : Bool
  /-- the status code of the most recent DECODER run (10_state.md R26, 30_encoding.md R70) -/
  decStatus : BitVec 2
  /-- the input ports of the coming cycle (10_state.md R27) -/
  pins : Pins
  /-- the input ports of the cycles after it (70_reset_and_hazards.md R156; log entry 2) -/
  trace : List Pins
  /-- the model's own counter, which numbers the free values (log entry 9) -/
  freeIndex : Nat
deriving DecidableEq, Repr

/-- Why the machine stops with a fault. There is no constructor: a condition is reported on a status output and the CORE
goes on (60_exceptions.md R131), no byte is illegal (30_encoding.md R62), "The DECODER never faults"
(42_channel_decoder.md R122), and "a model of the CORE never faults" (93_implementation_defined.md K6); log entry 14. -/
inductive Fault
deriving DecidableEq, Repr

/-- Why a meaning is missing, or a code that the spec reserves is not handed out. -/
inductive Refusal where
  /-- Raised by `exec` for an operation that has no meaning yet, named as the opcode table names it; no arm does. Safe. -/
  | notModelled (mnemonic : String)
  /-- Raised by a consumer's read of `dec_status` that finds the reserved code 2'b11: "a model that sees it must refuse"
  (92_eei_decisions.md D25; 30_encoding.md R70, 93_implementation_defined.md K16). Safe. -/
  | reservedStatus
deriving DecidableEq, Repr

/-- The input ports in a cycle for which no trace entry says anything: no control pin, no byte, `cfg_adjust` and the ignored
`in_data` free (log entries 2 and 8). -/
def idlePins (n : Nat) : Pins :=
  { rst := false, clr := false, inValid := false, inData := Config.freeInData n, cfgAdjust := Config.freeAdjust n }

/-- The machine right after a reset cycle (10_state.md R39), with no input cycle waiting. `acc` and `frm_buf` list no byte,
`ch` is the free value number 0 (R40; log entries 3 and 4). -/
def State.reset : State :=
  { esc := false
    acc := []
    accLen := 0#Config.lenW
    accOvf := false
    frmBuf := []
    frmLen := 0#Config.lenW
    frmOvf := false
    frmValid := false
    ch := Config.freeChannels 0
    chLoaded := false
    decDone := false
    decStatus := 0b00#2
    pins := idlePins 0
    trace := []
    freeIndex := 1 }

end Sys2Proof.Machine
end

