-- ==== Sys2Proof/Machine/Flags.lean ====
section
/-!
DEFINITION. The flags and status codes: the derived mode, the DECODER's status code, the conditions and their codes.
-/

namespace Sys2Proof.Machine

/-- The DEFRAMER's mode (10_state.md R21): a function of `esc` and `acc_len`, no register. -/
inductive Mode where
  | idle
  | collecting
  | escapePending
deriving DecidableEq, Repr

/-- 10_state.md R21. -/
def mode (s : State) : Mode :=
  if s.esc = true then .escapePending
  else if 0 < s.accLen.toNat then .collecting
  else .idle

/-- The names of the DECODER's status codes (30_encoding.md R70). -/
inductive DecodeStatus where
  | ok
  | frameTooShort
  | invalidFrameType
deriving DecidableEq, Repr

/-- The code on `dec_status` (30_encoding.md R70). -/
def statusCode : DecodeStatus → BitVec 2
  | .ok => 0b00#2
  | .frameTooShort => 0b01#2
  | .invalidFrameType => 0b10#2

/-- The name of a code; 2'b11 is reserved and has none (30_encoding.md R70). -/
def statusName (code : BitVec 2) : Option DecodeStatus :=
  if code = 0b00#2 then some .ok
  else if code = 0b01#2 then some .frameTooShort
  else if code = 0b10#2 then some .invalidFrameType
  else none

/-- The conditions the CORE can raise, with the info of the rule that raises them (60_exceptions.md R124). StreamFailure and
Desynchronization have no code in the CORE (R127, R129). -/
inductive Condition where
  | frameTooShort (len : Nat)
  | invalidFrameType (type : Byte)
  | accumulatorOverflow
deriving DecidableEq, Repr

end Sys2Proof.Machine
end

