-- ==== Sys2Proof/Machine/Ops.lean ====
section
/-!
DEFINITION. The named operations over the byte spaces and the registers: read, write, append, frame emission, clear,
reset, and raising a condition (the only thing the CORE does in place of taking an exception).
-/

namespace Sys2Proof.Machine

/-! ## Byte spaces -/

/-- The canonical form: addresses strictly rise (an unlisted address has no value, so no entry equals what it reads as). -/
abbrev Memory.wf (m : Memory) : Prop := (m.map Prod.fst).Pairwise (· < ·)

/-- The byte at an address, if it has a value. -/
def Memory.read : Memory → Nat → Option Byte
  | [], _ => none
  | (k, b) :: m, a => if k = a then some b else Memory.read m a

/-- Write one byte, keeping the addresses in order. -/
def Memory.write : Memory → Nat → Byte → Memory
  | [], a, v => [(a, v)]
  | (k, b) :: m, a, v =>
    if a < k then (a, v) :: (k, b) :: m
    else if a = k then (a, v) :: m
    else (k, b) :: Memory.write m a v

/-- The bytes at addresses below `n`. -/
def Memory.below (n : Nat) (m : Memory) : Memory := m.filter fun c => c.1 < n

/-! ## Conditions (60_exceptions.md R124, R131, R132) -/

/-- `raise <Condition>(info)`: drive the condition's code and continue. No state is saved, no handler runs, no mode changes
(60_exceptions.md R131). The info is recorded nowhere beyond the code (R124). There is nothing to return from: the next
frame is the return (R132). -/
def raiseCondition (c : Condition) (s : State) : State :=
  match c with
  | .frameTooShort _ => { s with decStatus := statusCode .frameTooShort, decDone := true }
  | .invalidFrameType _ => { s with decStatus := statusCode .invalidFrameType, decDone := true }
  | .accumulatorOverflow => { s with accOvf := true }

/-! ## DEFRAMER registers -/

/-- `esc <- b`. -/
def setEsc (b : Bool) (s : State) : State := { s with esc := b }

/-- `len + 1` on a length below `ACC_CAP`, as the pseudocode adds: the sum fits `LEN_W` bits, so nothing wraps (00_scope.md
R10). A length that is not below `ACC_CAP` stays as it is; no operation increments one (20_memory.md R44; log entry 7). -/
def lenSucc (len : LenWord) : LenWord :=
  if h : len.toNat < Config.accCap then BitVec.ofNatLT (len.toNat + 1) (Nat.lt_of_le_of_lt h Config.accCap_lt) else len

/-- `MemWrite(acc_len, 1, v)` and `acc_len <- acc_len + 1` at one edge (20_memory.md R44). -/
def storeByte (v : Byte) (s : State) : State :=
  { s with acc := Memory.write s.acc s.accLen.toNat v, accLen := lenSucc s.accLen }

/-- `append(v)` (40_deframer.md R77, R84): beyond `ACC_CAP` the byte is lost and the overflow is marked. -/
def append (v : Byte) (s : State) : State :=
  if s.accLen.toNat < Config.accCap then storeByte v s else raiseCondition .accumulatorOverflow s

/-- `acc_len <- 0`, `acc_ovf <- 0`. No byte of `acc` is part of the content any more, so none keeps a value
(10_state.md R22, R40; log entry 4). -/
def dropContent (s : State) : State := { s with acc := [], accLen := 0#Config.lenW, accOvf := false }

/-! ## Frame output registers -/

/-- The emission (40_deframer.md R83, 20_memory.md R46): `frm_buf[k] <- acc[k]` for `k < acc_len`, `frm_len <- acc_len`,
`frm_ovf <- acc_ovf`, `frm_valid <- 1`. Bytes from `acc_len` on are not promised (R46), so they have no value after it
(log entry 4). -/
def emitFrame (s : State) : State :=
  { s with frmBuf := Memory.below s.accLen.toNat s.acc, frmLen := s.accLen, frmOvf := s.accOvf, frmValid := true }

/-- A cycle that emits no frame: `frm_valid <- 0`, `frm_buf`, `frm_len`, `frm_ovf` keep their values (40_deframer.md R83). -/
def noEmission (s : State) : State := { s with frmValid := false }

/-! ## DECODER registers -/

/-- A cycle in which the DECODER does not run: `dec_done <- 0` (42_channel_decoder.md R115). -/
def noDecode (s : State) : State := { s with decDone := false }

/-- The commit of 42_channel_decoder.md R115: 16 channels, `ch_loaded`, `dec_status`, `dec_done` at one edge. -/
def commitChannels (values : Vector ChannelValue 16) (s : State) : State :=
  { s with ch := values, chLoaded := true, decStatus := statusCode .ok, decDone := true }

/-! ## Clear and reset -/

/-- `CLR` (40_deframer.md R86): `esc`, `acc_len`, `acc_ovf`, `frm_valid` to 0, the frame and DECODER registers kept. -/
def clearDeframer (s : State) : State := noEmission (dropContent (setEsc false s))

/-- `RST` (70_reset_and_hazards.md R141, 10_state.md R39): every register takes its reset value; `acc`, `frm_buf` and `ch`
become unspecified (R40), the channels a free value of their own. The input pins and the trace are no registers. -/
def resetRegisters (s : State) : State :=
  { esc := false
    acc := []
    accLen := 0#Config.lenW
    accOvf := false
    frmBuf := []
    frmLen := 0#Config.lenW
    frmOvf := false
    frmValid := false
    ch := Config.freeChannels s.freeIndex
    chLoaded := false
    decDone := false
    decStatus := statusCode .ok
    pins := s.pins
    trace := s.trace
    freeIndex := s.freeIndex + 1 }

/-! ## Input -/

/-- The edge has passed: the pins of the next cycle are the next entry of the trace, or an idle cycle when the trace has
ended (log entry 2). -/
def nextInput (s : State) : State :=
  match s.trace with
  | [] => { s with pins := idlePins s.freeIndex, freeIndex := s.freeIndex + 1 }
  | p :: rest => { s with pins := p, trace := rest, freeIndex := s.freeIndex + 1 }

end Sys2Proof.Machine
end

