-- ==== Sys2Proof/Machine/Operands.lean ====
section
/-!
DEFINITION. The operands: the byte after an escape, the registered frame, the view, the channel stream, the 11-bit fields
and their scaling.
-/

namespace Sys2Proof.Machine

/-! ## Bytes and byte order -/

/-- The byte an `ESCAPED` operation appends: `d ^ 0x20` (40_deframer.md R81). -/
def unescape (d : Byte) : Byte := d ^^^ Config.escapeMask

/-- The value of a byte list, the first byte least significant (20_memory.md R48). -/
def littleEndian : List Byte → Nat
  | [] => 0
  | b :: bs => b.toNat + 256 * littleEndian bs

/-! ## The registered frame -/

/-- `frm_buf[k]` as the ROUTER, the DECODER and the port see it. A byte that has no value is any value (20_memory.md R47,
K14; log entry 5). -/
def frmByte (s : State) (k : Nat) : Byte :=
  (Memory.read s.frmBuf k).getD (Config.freeFrameByte s.freeIndex k)

/-- `frm_buf[0 .. frm_len-1]`. -/
def frameBytes (s : State) : List Byte := (List.range s.frmLen.toNat).map (frmByte s)

/-- `MemRead(a, n)` on the frame buffer: `n` bytes, the lowest address least significant (20_memory.md R48). -/
def memRead (s : State) (a n : Nat) : BitVec (8 * n) :=
  BitVec.ofNat (8 * n) (littleEndian ((List.range n).map fun k => frmByte s (a + k)))

/-- The view (41_router.md R95): `view[k] = frm_buf[1+k]` for `k = 0 .. frm_len-2`. -/
def frameView (s : State) : List Byte := (List.range (s.frmLen.toNat - 1)).map fun k => frmByte s (k + 1)

/-! ## The channel stream -/

/-- The stream `S` of the 22 payload bytes `p[0..21]` (20_memory.md R49): bit `8k+j` is bit `j` of `p[k]`. -/
def streamOf (payload : List Byte) : ChannelStream := BitVec.ofNat 176 (littleEndian payload)

/-- `r[i] = S[11*i+10 : 11*i]` (42_channel_decoder.md R109). -/
def rawChannel (S : ChannelStream) (i : Nat) : RawValue := S.extractLsb' (Config.channelBits * i) Config.channelBits

/-- The shifter form (42_channel_decoder.md R110): `(W >> s) & 0x07FF` with `W = {b2, b1, b0}`. -/
def windowField (b2 b1 b0 : Byte) (shift : Nat) : BitVec 24 :=
  ((b2 ++ b1 ++ b0 : BitVec 24) >>> shift) &&& Config.channelMask

/-! ## Scaling -/

/-- `(5 * r) div 8 + 880`, computed on natural numbers and narrowed to 12 bits at the end (42_channel_decoder.md R113). -/
def scale (r : RawValue) : ChannelValue :=
  BitVec.ofNat 12 (Config.scaleNum * r.toNat / Config.scaleDen + Config.scaleOffset)

/-- `v[i]`: scaled with `adjust = 1` (42_channel_decoder.md R113), the raw value zero-extended with `adjust = 0` (R114). -/
def channelValue (adjust : Bool) (r : RawValue) : ChannelValue :=
  if adjust = true then scale r else r.setWidth 12

/-- The 16 channel values of a payload (42_channel_decoder.md R105, R111). -/
def channelValues (payload : List Byte) (adjust : Bool) : Vector ChannelValue 16 :=
  Vector.ofFn fun i : Fin 16 => channelValue adjust (rawChannel (streamOf payload) i.val)

/-! ## DECODE -/

/-- `DECODE(view, adjust)` (42_channel_decoder.md R105): the length check (R106), then the type check (R107, R108), then the
extraction from the 22 bytes after the type byte and the commit (R109 to R115). A view without a type byte is short. -/
def decodeRun (view : List Byte) (adjust : Bool) (s : State) : State :=
  if view.length < Config.minViewLen then raiseCondition (.frameTooShort view.length) s
  else
    match view with
    | [] => raiseCondition (.frameTooShort 0) s
    | type :: rest =>
      if type = Config.controlType then commitChannels (channelValues (rest.take Config.payloadBytes) adjust) s
      else raiseCondition (.invalidFrameType type) s

end Sys2Proof.Machine
end

