-- ==== Sys2Proof/Machine/Decoder.lean ====
section
/-!
DEFINITION. The meanings of the three DECODE rows (42_channel_decoder.md R105). Each applies the one operation DECODE, with
its own checks, to the view it is given (log entry 11).
-/

namespace Sys2Proof.Machine

/-- `DECODE_OK` (42_channel_decoder.md R105, R109 to R115): with the sampled `cfg_adjust` as operand. -/
def execDecodeOk (view : List Byte) (adjust : Bool) (s : State) : Host.Outcome State Fault Refusal :=
  .next (decodeRun view adjust s)

/-- `DECODE_TOO_SHORT` (42_channel_decoder.md R106): `dec_status <- 01`, `dec_done <- 1`, channels unchanged. -/
def execDecodeTooShort (view : List Byte) (s : State) : Host.Outcome State Fault Refusal :=
  .next (decodeRun view s.pins.cfgAdjust s)

/-- `DECODE_BAD_TYPE` (42_channel_decoder.md R107): `dec_status <- 10`, `dec_done <- 1`, channels unchanged. -/
def execDecodeBadType (view : List Byte) (s : State) : Host.Outcome State Fault Refusal :=
  .next (decodeRun view s.pins.cfgAdjust s)

end Sys2Proof.Machine
end

