-- ==== Sys2Proof/Machine/Deframer.lean ====
section
/-!
DEFINITION. The meanings of the DEFRAMER's operations: MARKER, ESCAPE, DATA, ESCAPED and CLR (40_deframer.md). Each byte
operation takes one DEFRAMER cycle, so it also writes `frm_valid` (R83; log entry 13).
-/

namespace Sys2Proof.Machine

/-- `MARKER` (40_deframer.md R78, R83): the pending escape is dropped; a non-empty accumulator is emitted and emptied. -/
def execMarker (s : State) : Host.Outcome State Fault Refusal :=
  .next (if 0 < s.accLen.toNat then dropContent (emitFrame (setEsc false s)) else noEmission (setEsc false s))

/-- `ESCAPE` (40_deframer.md R79): `esc <- 1`, nothing is appended. -/
def execEscape (s : State) : Host.Outcome State Fault Refusal :=
  .next (noEmission (setEsc true s))

/-- `DATA` (40_deframer.md R80): `append(d)`. -/
def execData (d : Byte) (s : State) : Host.Outcome State Fault Refusal :=
  .next (noEmission (append d s))

/-- `ESCAPED` (40_deframer.md R81, R85): `esc <- 0`, `append(d ^ 0x20)`; `esc` is cleared even when the byte is lost. -/
def execEscaped (d : Byte) (s : State) : Host.Outcome State Fault Refusal :=
  .next (noEmission (append (unescape d) (setEsc false s)))

/-- `CLR` (40_deframer.md R86): the frame being collected is discarded and nothing is emitted. -/
def execClr (s : State) : Host.Outcome State Fault Refusal :=
  .next (clearDeframer s)

end Sys2Proof.Machine
end

