-- ==== Sys2Proof/Machine/Reset.lean ====
section
/-!
DEFINITION. The meaning of RST (70_reset_and_hazards.md R141).
-/

namespace Sys2Proof.Machine

/-- `RST` (70_reset_and_hazards.md R141): every register takes its reset value. -/
def execRst (s : State) : Host.Outcome State Fault Refusal :=
  .next (resetRegisters s)

end Sys2Proof.Machine
end

