-- ==== Sys2Proof/Machine/Router.lean ====
section
/-!
DEFINITION. The meanings of the ROUTER's operations: ROUTE and SKIP (41_router.md).
-/

namespace Sys2Proof.Machine

/-- `ROUTE` (41_router.md R94): with a control frame registered, run DECODE on its view with the sampled `cfg_adjust`
(42_channel_decoder.md R112). The test is the pseudocode's own; where it fails nothing is written (log entry 12). -/
def execRoute (s : State) : Host.Outcome State Fault Refusal :=
  .next (if s.frmValid = true ∧ 2 ≤ s.frmLen.toNat ∧ frmByte s 1 = Config.controlType
    then decodeRun (frameView s) s.pins.cfgAdjust s else s)

/-- `SKIP` (41_router.md R96): the DECODER does not run; `dec_done <- 0`. -/
def execSkip (s : State) : Host.Outcome State Fault Refusal :=
  .next (noDecode s)

end Sys2Proof.Machine
end

