-- ==== Sys2Proof/Machine/Dispatch.lean ====
section
/-!
DEFINITION. The dispatch: one arm per operation of spec/opcode_table.json.
-/

namespace Sys2Proof.Machine

/-- What an operation does to a state. -/
def exec (i : Instr) (s : State) : Host.Outcome State Fault Refusal :=
  match i with
  | .marker => Sys2Proof.Machine.execMarker s
  | .escape => Sys2Proof.Machine.execEscape s
  | .data d => Sys2Proof.Machine.execData d s
  | .escaped d => Sys2Proof.Machine.execEscaped d s
  | .clr => Sys2Proof.Machine.execClr s
  | .rst => Sys2Proof.Machine.execRst s
  | .route => Sys2Proof.Machine.execRoute s
  | .skip => Sys2Proof.Machine.execSkip s
  | .decodeOk view adjust => Sys2Proof.Machine.execDecodeOk view adjust s
  | .decodeTooShort view => Sys2Proof.Machine.execDecodeTooShort view s
  | .decodeBadType view => Sys2Proof.Machine.execDecodeBadType view s

end Sys2Proof.Machine
end

