-- ==== Sys2Proof/Machine/Cycle.lean ====
section
/-!
DEFINITION. One clock cycle (70_reset_and_hazards.md R144): which operations the cycle holds, the decode stage, the
deframer stage, and the next cycle's input; and how an input word is placed on the pins.
-/

namespace Sys2Proof.Machine

/-- Go on from a next state; a stop stays a stop. -/
def andThen (o : Host.Outcome State Fault Refusal) (f : State → Host.Outcome State Fault Refusal) :
    Host.Outcome State Fault Refusal :=
  match o with
  | .next s => f s
  | .fault r => .fault r
  | .refused r => .refused r

/-- The frame-level operation of the cycle: there is one exactly when `frm_valid = 1` (41_router.md R94, R96). -/
def frameInstr (s : State) : Option Instr :=
  if s.frmValid = true then some (decodeFrame s.frmLen.toNat (frmByte s 1)) else none

/-- The byte-level or control operation of the cycle, if its pins hold one (40_deframer.md R76, R82, R86). -/
def inputInstr (s : State) : Option Instr := (decodePins s.esc s.pins).toOption

/-- The decode stage (70_reset_and_hazards.md R144): the frame-level operation, or `dec_done <- 0`. -/
def decodeStage (s : State) : Host.Outcome State Fault Refusal :=
  match frameInstr s with
  | some i => exec i s
  | none => .next (noDecode s)

/-- The deframer stage (70_reset_and_hazards.md R144): the input operation, or no step and `frm_valid <- 0`
(40_deframer.md R82, R83). -/
def deframerStage (i : Option Instr) (s : State) : Host.Outcome State Fault Refusal :=
  match i with
  | some i => exec i s
  | none => .next (noEmission s)

/-- One clock edge (70_reset_and_hazards.md R144). Reset takes priority over everything (R142). Otherwise the decode stage
and the deframer stage both act, each on the operation that the values before the edge select (10_state.md R38); they
write disjoint registers (R148), so the order in which the model applies them is not seen (log entry 1). -/
def cycle (s : State) : Host.Outcome State Fault Refusal :=
  if s.pins.rst = true then andThen (exec .rst s) fun t => .next (nextInput t)
  else andThen (decodeStage s) fun t => andThen (deframerStage (inputInstr s) t) fun u => .next (nextInput u)

/-- `s` with an input word on the pins of the coming cycle (log entry 10). The escape flag is part of what selects a byte's
operation, so a byte word sets it; a control word leaves it. A word that is no input word changes nothing. -/
def placeWord (s : State) (nbits w : Nat) : State :=
  match tableWordBits nbits w with
  | none => s
  | some v =>
    { s with
      pins := wordPins v s.pins.cfgAdjust
      esc := if wordRst v || wordClr v then s.esc else wordEsc v }

end Sys2Proof.Machine
end

