-- ==== Sys2Proof/Machine/Step.lean ====
section
/-!
DEFINITION. The step of the machine, one clock cycle, and the placing of an input word where the step takes its next one.
-/

namespace Sys2Proof.Machine

/-- One rising edge of `clk` (10_state.md R38, 70_reset_and_hazards.md R144). -/
def step (s : State) : Host.Outcome State Fault Refusal := cycle s

/-- `s` with the operation of an input word on the pins of the coming cycle, so that the next step takes it. -/
def State.withFetchWord (s : State) (nbits w : Nat) : State := placeWord s nbits w

end Sys2Proof.Machine
end

