-- ==== Sys2Proof/Machine/Ports.lean ====
section
/-!
DEFINITION. What a consumer reads at the output ports (10_state.md R28). A read is a function of the state and changes
nothing (20_memory.md R54). Every port always carries a value; one that the spec leaves unspecified is a free value, of
which nothing can be proved (10_state.md R40; log entry 17).
-/

namespace Sys2Proof.Machine

/-- The output ports (10_state.md R28): every register outside the DEFRAMER group, with its width; `frm_buf` is all
`ACC_CAP` bytes. -/
structure OutputPorts where
  frmValid : Bool
  frmLen : LenWord
  frmOvf : Bool
  frmBuf : Vector Byte Config.accCap
  ch : Vector ChannelValue 16
  chLoaded : Bool
  decDone : Bool
  decStatus : BitVec 2
deriving DecidableEq, Repr

/-- A consumer's read of `frm_buf[k]`: the byte of the frame for `k < frm_len`; beyond it "any value on the port", a free
value (10_state.md R28; 20_memory.md R46; 93_implementation_defined.md K14; log entries 5 and 17). -/
def readFrameByte (s : State) (k : Fin Config.accCap) : Byte := frmByte s k.val

/-- A consumer's read of `ch[i]`: while `ch_loaded = 0` it is the free value the last reset left (10_state.md R39, R40;
93_implementation_defined.md K15; log entries 3 and 17). -/
def readChannel (s : State) (i : Fin 16) : ChannelValue := s.ch[i]

/-- A consumer's read of `dec_status`: the code 2'b11 is refused (30_encoding.md R70; 92_eei_decisions.md D25;
93_implementation_defined.md K16). -/
def readStatus (s : State) : Except Refusal DecodeStatus :=
  match statusName s.decStatus with
  | some c => .ok c
  | none => .error .reservedStatus

/-- 10_state.md R28. -/
def outputPorts (s : State) : OutputPorts :=
  { frmValid := s.frmValid, frmLen := s.frmLen, frmOvf := s.frmOvf, frmBuf := Vector.ofFn (readFrameByte s), ch := s.ch,
    chLoaded := s.chLoaded, decDone := s.decDone, decStatus := s.decStatus }

end Sys2Proof.Machine
end

