-- ==== Sys2Proof/Safety.lean ====
section
/-!
DEFINITION. What claims about the CORE are stated in: the invariant of its states, what is observed of a run
(70_reset_and_hazards.md R156), and the unbounded source behaviour the CORE is compared with (40_deframer.md R92,
42_channel_decoder.md R117).
-/

namespace Sys2Proof.Safety

open Sys2Proof.Machine

/-! ## The invariant -/

/-- What holds in every reachable state (10_state.md R29, R30, R32, R40; 70_reset_and_hazards.md R149). The byte spaces list
exactly the bytes below their lengths, so they are in canonical form and no byte beyond a length has a value. -/
structure Inv (s : State) : Prop where
  /-- `acc` has a value exactly at `0 .. acc_len-1` (10_state.md R22, R40) -/
  accCells : s.acc.map Prod.fst = List.range s.accLen.toNat
  /-- `acc_len <= ACC_CAP` (10_state.md R29) -/
  accLen_le : s.accLen.toNat ≤ Config.accCap
  /-- `acc_ovf = 1` implies `acc_len = ACC_CAP` (10_state.md R29) -/
  accOvf_full : s.accOvf = true → s.accLen.toNat = Config.accCap
  /-- `frm_buf` has a value exactly at `0 .. frm_len-1` (20_memory.md R47, 10_state.md R40) -/
  frmCells : s.frmBuf.map Prod.fst = List.range s.frmLen.toNat
  /-- `frm_len <= ACC_CAP` (10_state.md R29) -/
  frmLen_le : s.frmLen.toNat ≤ Config.accCap
  /-- `frm_ovf = 1` implies `frm_len = ACC_CAP` (10_state.md R29) -/
  frmOvf_full : s.frmOvf = true → s.frmLen.toNat = Config.accCap
  /-- `frm_valid = 1` implies `frm_len >= 1` (10_state.md R30) -/
  frmLen_pos : s.frmValid = true → 1 ≤ s.frmLen.toNat
  /-- after an emission the DEFRAMER is `Idle` with no overflow mark (40_deframer.md R78) -/
  emitted_idle : s.frmValid = true → s.esc = false ∧ s.accLen.toNat = 0 ∧ s.accOvf = false
  /-- `dec_status` takes only the values 0, 1 and 2 (10_state.md R32) -/
  status_named : s.decStatus ≠ 0b11#2
  /-- a decoded channel is at most 2159 (42_channel_decoder.md R118; raw values are at most 2047) -/
  channels_le : s.chLoaded = true → ∀ i : Fin 16, s.ch[i].toNat ≤ 2159

/-- The DEFRAMER holds nothing: mode `Idle` and no overflow mark. -/
def Fresh (s : State) : Prop := s.esc = false ∧ s.accLen.toNat = 0 ∧ s.accOvf = false

/-- `s` and `t` agree on every register the deframer stage writes (70_reset_and_hazards.md R148). -/
def SameDeframer (s t : State) : Prop :=
  s.esc = t.esc ∧ s.acc = t.acc ∧ s.accLen = t.accLen ∧ s.accOvf = t.accOvf

/-- `s` and `t` agree on the frame output registers (10_state.md R19). -/
def SameFrame (s t : State) : Prop :=
  s.frmBuf = t.frmBuf ∧ s.frmLen = t.frmLen ∧ s.frmOvf = t.frmOvf ∧ s.frmValid = t.frmValid

/-- `s` and `t` agree on every register the decode stage writes (70_reset_and_hazards.md R148). -/
def SameDecoder (s t : State) : Prop :=
  s.ch = t.ch ∧ s.chLoaded = t.chLoaded ∧ s.decDone = t.decDone ∧ s.decStatus = t.decStatus

/-- `s` and `t` agree on the model's input side: pins, trace and the counter of free values. -/
def SameInput (s t : State) : Prop :=
  s.pins = t.pins ∧ s.trace = t.trace ∧ s.freeIndex = t.freeIndex

/-! ## Observations (70_reset_and_hazards.md R156) -/

/-- (a) the frame emitted at the last edge, read in its `frm_valid` cycle. -/
def emitted (s : State) : Option Frame :=
  if s.frmValid = true then some { bytes := frameBytes s, ovf := s.frmOvf } else none

/-- (b) a `dec_done` event: its `dec_status` and, for `OK`, its 16 channels as integers. -/
structure DecodeEvent where
  status : BitVec 2
  channels : List Nat
deriving DecidableEq, Repr

/-- The decode event of the last edge. -/
def decodeEvent (s : State) : Option DecodeEvent :=
  if s.decDone = true then
    some { status := s.decStatus
           channels := if s.decStatus = 0b00#2 then s.ch.toList.map BitVec.toNat else [] }
  else none

/-- The content of the accumulator as a sequence (10_state.md R22). -/
def content (s : State) : List Byte := s.acc.map Prod.snd

/-! ## Runs -/

/-- One DEFRAMER step at transaction level (40_deframer.md R76, R77): classify the byte and apply its operation. -/
def deframe (s : State) (d : Byte) : Host.Outcome State Fault Refusal := exec (decodeByte s.esc d) s

/-- The frames the DEFRAMER emits on a byte stream, in order. -/
def deframeFrames : State → List Byte → List Frame
  | _, [] => []
  | s, d :: ds =>
    match deframe s d with
    | .next t => (emitted t).toList ++ deframeFrames t ds
    | .fault _ => []
    | .refused _ => []

/-- The state after a byte stream. -/
def deframeEnd : State → List Byte → Host.Outcome State Fault Refusal
  | s, [] => .next s
  | s, d :: ds => andThen (deframe s d) fun t => deframeEnd t ds

/-- One clock cycle with the given input pins. -/
def clock (s : State) (p : Pins) : Host.Outcome State Fault Refusal := step { s with pins := p, trace := [] }

/-- The decode events of a run with the given input cycles, in order. -/
def decodeEvents : State → List Pins → List DecodeEvent
  | _, [] => []
  | s, p :: ps =>
    match clock s p with
    | .next t => (decodeEvent t).toList ++ decodeEvents t ps
    | .fault _ => []
    | .refused _ => []

/-- The frames emitted in a run with the given input cycles, in order, each read in its `frm_valid` cycle. -/
def cycleFrames : State → List Pins → List Frame
  | _, [] => []
  | s, p :: ps =>
    match clock s p with
    | .next t => (emitted t).toList ++ cycleFrames t ps
    | .fault _ => []
    | .refused _ => []

/-- The bytes accepted in the given input cycles (10_state.md R27): those offered in a cycle with no control pin high, since
`rst` and `clr` take priority over an offered byte (40_deframer.md R87, 70_reset_and_hazards.md R142). -/
def acceptedBytes (ps : List Pins) : List Byte :=
  ps.filterMap fun p => if p.rst = false ∧ p.clr = false ∧ p.inValid = true then some p.inData else none

/-- The state after the given input cycles. -/
def clockEnd : State → List Pins → Host.Outcome State Fault Refusal
  | s, [] => .next s
  | s, p :: ps => andThen (clock s p) fun t => clockEnd t ps

/-! ## The unbounded source behaviour -/

/-- The source's FrameReader: an escape flag and an unbounded accumulator (00_scope.md R11, 10_state.md R20). -/
structure Reader where
  esc : Bool
  acc : List Byte
deriving DecidableEq, Repr

/-- A new reader: "initially empty", "initially false". -/
def Reader.new : Reader := { esc := false, acc := [] }

/-- One byte of the source's `nextFrame` (30_encoding.md R60, its three cases; 40_deframer.md R77 with `ACC_CAP = ∞`). -/
def readerStep (r : Reader) (d : Byte) : Reader × Option (List Byte) :=
  if d = 0x7E#8 then (Reader.new, if r.acc = [] then none else some r.acc)
  else if d = 0x7D#8 ∧ r.esc = false then ({ r with esc := true }, none)
  else ({ esc := false, acc := r.acc ++ [if r.esc = true then d ^^^ 0x20#8 else d] }, none)

/-- The frames the source returns on a byte stream. -/
def readerFrames : Reader → List Byte → List (List Byte)
  | _, [] => []
  | r, d :: ds => (readerStep r d).2.toList ++ readerFrames (readerStep r d).1 ds

/-- Bit `n` of the channel stream: bit `n mod 8` of payload byte `n div 8` (20_memory.md R49). -/
def payloadBit (payload : List Byte) (n : Nat) : Bool := (payload.getD (n / 8) 0#8).getLsbD (n % 8)

/-- Channel `i`: the number whose 11 bits are bits `11*i .. 11*i+10` of the stream (30_encoding.md R69). -/
def sourceChannel (payload : List Byte) (i : Nat) : Nat :=
  ((List.range 11).map fun j => if payloadBit payload (11 * i + j) = true then 2 ^ j else 0).sum

/-- The source's ChannelDecoder with its length check, on a length-stripped view (42_channel_decoder.md R105 to R108). -/
def sourceDecode (view : List Byte) (adjust : Bool) : DecodeEvent :=
  if view.length < 23 then { status := 0b01#2, channels := [] }
  else if view.head? ≠ some 0x00#8 then { status := 0b10#2, channels := [] }
  else
    { status := 0b00#2
      channels := (List.range 16).map fun i =>
        if adjust = true then 5 * sourceChannel (view.drop 1) i / 8 + 880 else sourceChannel (view.drop 1) i }

/-- The source's caller (41_router.md R94, R96, R97): control frames go to the decoder less their first byte. -/
def sourceCall (frame : List Byte) (adjust : Bool) : Option DecodeEvent :=
  if frame[1]? = some 0x00#8 then some (sourceDecode (frame.drop 1) adjust) else none

/-- The source pipeline between two input cycles: its reader, and the frame it has just returned. -/
structure SourceLine where
  reader : Reader
  returned : Option (List Byte)
deriving DecidableEq, Repr

/-- The source pipeline in one input cycle without reset: the returned frame is looked at, then the cycle's byte is read; a
cycle with `clr` opens a new reader (60_exceptions.md R127). -/
def sourceCycle (l : SourceLine) (p : Pins) : SourceLine :=
  if p.clr = true then { reader := Reader.new, returned := none }
  else if p.inValid = true then
    { reader := (readerStep l.reader p.inData).1, returned := (readerStep l.reader p.inData).2 }
  else { l with returned := none }

/-- The decode outcomes of the source pipeline on the given input cycles, in order. -/
def sourceEvents : SourceLine → List Pins → List DecodeEvent
  | _, [] => []
  | l, p :: ps => (l.returned.bind fun f => sourceCall f p.cfgAdjust).toList ++ sourceEvents (sourceCycle l p) ps

end Sys2Proof.Safety
end

