-- ==== Sys2Proof/Certificates/Slice0/Obligations.lean ====
section
/-!
DEFINITION. What is claimed of the model, for the provers: one proposition per claim, each with the rule of the spec it
formalises.
-/

open Sys2Proof Sys2Proof.Machine Sys2Proof.Safety

/-! ## The DEFRAMER's operations -/

/-- MARKER (40_deframer.md R78, with the emission of R83): it is 0x7E with either escape flag; the escape is dropped and the mode is Idle; an empty accumulator
gives nothing else; a non-empty one is emitted whole and emptied. The DECODER registers and the input side are untouched. -/
def Obligations.MarkerEmitsAndIdles : Prop :=
  (∀ esc : Bool, decode (.byte esc 0x7E#8) = .ok .marker) ∧
  ∀ s : State,
    (s.accLen.toNat = 0 → exec .marker s = .next { s with esc := false, frmValid := false }) ∧
    (0 < s.accLen.toNat → ∃ t, exec .marker s = .next t ∧
      t.esc = false ∧ t.accLen.toNat = 0 ∧ t.accOvf = false ∧ mode t = .idle ∧
      t.frmValid = true ∧ t.frmLen = s.accLen ∧ t.frmOvf = s.accOvf ∧
      (∀ k, k < s.accLen.toNat → Memory.read t.frmBuf k = Memory.read s.acc k) ∧
      SameDecoder s t ∧ SameInput s t)

/-- ESCAPE (40_deframer.md R79): only the escape flag is set and nothing is appended; the cycle emits no frame (R83). -/
def Obligations.EscapeSetsPending : Prop :=
  decode (.byte false 0x7D#8) = .ok .escape ∧
  ∀ s : State, ∃ t, exec .escape s = .next t ∧
    t.esc = true ∧ mode t = .escapePending ∧ t.accLen = s.accLen ∧ t.accOvf = s.accOvf ∧
    (∀ k, Memory.read t.acc k = Memory.read s.acc k) ∧
    t.frmValid = false ∧ t.frmLen = s.frmLen ∧ t.frmOvf = s.frmOvf ∧
    (∀ k, Memory.read t.frmBuf k = Memory.read s.frmBuf k) ∧
    SameDecoder s t ∧ SameInput s t

/-- DATA (40_deframer.md R80): with room the byte is written at `acc_len` and nowhere else; when full only the overflow mark
is set. Everything but the append and `frm_valid` is unchanged, in every state and for every byte. -/
def Obligations.DataAppendsByte : Prop :=
  (∀ d : Byte, d ≠ 0x7E#8 → d ≠ 0x7D#8 → decode (.byte false d) = .ok (.data d)) ∧
  ∀ (s : State) (d : Byte), ∃ t, exec (.data d) s = .next t ∧
    (s.accLen.toNat < Config.accCap →
      t.accLen.toNat = s.accLen.toNat + 1 ∧ t.accOvf = s.accOvf ∧ Memory.read t.acc s.accLen.toNat = some d ∧
      ∀ k, k ≠ s.accLen.toNat → Memory.read t.acc k = Memory.read s.acc k) ∧
    (Config.accCap ≤ s.accLen.toNat →
      t.accLen = s.accLen ∧ t.accOvf = true ∧ ∀ k, Memory.read t.acc k = Memory.read s.acc k) ∧
    t.esc = s.esc ∧ t.frmValid = false ∧ t.frmLen = s.frmLen ∧ t.frmOvf = s.frmOvf ∧
    (∀ k, Memory.read t.frmBuf k = Memory.read s.frmBuf k) ∧
    SameDecoder s t ∧ SameInput s t

/-- ESCAPED (40_deframer.md R81): the escape is cleared, whether or not the byte fits, and `d ^ 0x20` is appended as DATA
appends; 5E gives 7E, 5D gives 7D, 7D gives 5D. -/
def Obligations.EscapedAppendsXored : Prop :=
  (∀ d : Byte, d ≠ 0x7E#8 → decode (.byte true d) = .ok (.escaped d)) ∧
  ∀ (s : State) (d : Byte), ∃ t, exec (.escaped d) s = .next t ∧
    t.esc = false ∧
    (s.accLen.toNat < Config.accCap →
      t.accLen.toNat = s.accLen.toNat + 1 ∧ t.accOvf = s.accOvf ∧ Memory.read t.acc s.accLen.toNat = some (d ^^^ 0x20#8) ∧
      (d = 0x5E#8 → Memory.read t.acc s.accLen.toNat = some 0x7E#8) ∧
      (d = 0x5D#8 → Memory.read t.acc s.accLen.toNat = some 0x7D#8) ∧
      (d = 0x7D#8 → Memory.read t.acc s.accLen.toNat = some 0x5D#8) ∧
      ∀ k, k ≠ s.accLen.toNat → Memory.read t.acc k = Memory.read s.acc k) ∧
    (Config.accCap ≤ s.accLen.toNat →
      t.accLen = s.accLen ∧ t.accOvf = true ∧ ∀ k, Memory.read t.acc k = Memory.read s.acc k) ∧
    t.frmValid = false ∧ t.frmLen = s.frmLen ∧ t.frmOvf = s.frmOvf ∧
    (∀ k, Memory.read t.frmBuf k = Memory.read s.frmBuf k) ∧
    SameDecoder s t ∧ SameInput s t

/-- CLR (40_deframer.md R86, 70_reset_and_hazards.md R153): it is `clr = 1` with `rst = 0`; the operation clears the DEFRAMER and `frm_valid` and nothing
else; and a cycle with `clr = 1` and `rst = 0` does exactly that, whatever byte is offered, while the DECODER registers
become what the decode stage makes of them. -/
def Obligations.ClrClearsOnlyTheDeframer : Prop :=
  decode (.control false true) = .ok .clr ∧
  (∀ s : State, ∃ t, exec .clr s = .next t ∧
    t.esc = false ∧ t.accLen.toNat = 0 ∧ t.accOvf = false ∧ mode t = .idle ∧ t.frmValid = false ∧
    t.frmLen = s.frmLen ∧ t.frmOvf = s.frmOvf ∧ (∀ k, Memory.read t.frmBuf k = Memory.read s.frmBuf k) ∧
    SameDecoder s t ∧ SameInput s t) ∧
  (∀ s : State, s.pins.rst = false → s.pins.clr = true → ∃ t u, step s = .next t ∧ decodeStage s = .next u ∧
    t.esc = false ∧ t.accLen.toNat = 0 ∧ t.accOvf = false ∧ t.frmValid = false ∧
    t.frmLen = s.frmLen ∧ t.frmOvf = s.frmOvf ∧ (∀ k, Memory.read t.frmBuf k = Memory.read s.frmBuf k) ∧
    SameDecoder u t)

/-! ## Reset -/

/-- RST (70_reset_and_hazards.md R141): it is `rst = 1` with either `clr`; the operation, and any cycle with `rst = 1` whatever the other pins and the
registered frame are, gives every register with a reset value that value. -/
def Obligations.RstResetsEveryRegister : Prop :=
  (∀ clr : Bool, decode (.control true clr) = .ok .rst) ∧
  ∀ s : State,
    (∃ t, exec .rst s = .next t ∧ mode t = .idle ∧
      t.esc = false ∧ t.accLen.toNat = 0 ∧ t.accOvf = false ∧ t.frmValid = false ∧ t.frmLen.toNat = 0 ∧ t.frmOvf = false ∧
      t.chLoaded = false ∧ t.decDone = false ∧ t.decStatus = 0b00#2 ∧ t.pins = s.pins ∧ t.trace = s.trace) ∧
    (s.pins.rst = true → ∃ t, step s = .next t ∧ mode t = .idle ∧
      t.esc = false ∧ t.accLen.toNat = 0 ∧ t.accOvf = false ∧ t.frmValid = false ∧ t.frmLen.toNat = 0 ∧ t.frmOvf = false ∧
      t.chLoaded = false ∧ t.decDone = false ∧ t.decStatus = 0b00#2)

/-- Priority (70_reset_and_hazards.md R142, 40_deframer.md R87): with `rst = 1` every other pin is without effect, whatever frame
is registered, and the DECODER does not run; with `clr = 1` and `rst = 0` an offered byte is without effect. -/
def Obligations.ControlPinsBeatAnOfferedByte : Prop :=
  (∀ (s : State) (p : Pins), s.pins.rst = true → p.rst = true →
    step { s with pins := p } = step s ∧
    ∃ t, step s = .next t ∧ t.decDone = false ∧ t.chLoaded = false ∧ t.decStatus = 0b00#2 ∧ t.accLen.toNat = 0 ∧ t.esc = false) ∧
  (∀ (s : State) (valid : Bool) (d : Byte), s.pins.rst = false → s.pins.clr = true →
    step { s with pins := { s.pins with inValid := valid, inData := d } } = step s)

/-- The state after reset (10_state.md R39): every register to which the spec gives a reset value holds it, and the mode is
Idle. -/
def Obligations.ResetStateHoldsResetValues : Prop :=
  mode State.reset = .idle ∧ State.reset.esc = false ∧ State.reset.accLen.toNat = 0 ∧ State.reset.accOvf = false ∧
  State.reset.frmValid = false ∧ State.reset.frmLen.toNat = 0 ∧ State.reset.frmOvf = false ∧
  State.reset.chLoaded = false ∧ State.reset.decDone = false ∧ State.reset.decStatus = 0b00#2

/-- What a reset leaves where the spec gives no value (the MODEL's choice, log entries 3 and 4): no byte of either space has
a value, and the channels are the free values numbered by the counter, in `State.reset` and after every RST. -/
def Obligations.ResetLeavesUnspecifiedValuesFree : Prop :=
  (∀ k, Memory.read State.reset.acc k = none ∧ Memory.read State.reset.frmBuf k = none) ∧
  (∀ i : Fin 16, State.reset.ch[i] = Config.freeChannel 0 i.val) ∧
  ∀ s : State, ∃ t, exec .rst s = .next t ∧
    (∀ k, Memory.read t.acc k = none ∧ Memory.read t.frmBuf k = none) ∧
    (∀ i : Fin 16, t.ch[i] = Config.freeChannel s.freeIndex i.val) ∧ s.freeIndex < t.freeIndex

/-! ## Decoding and encoding -/

/-- The byte classes (30_encoding.md R60, R61): for every escape flag and every byte. -/
def Obligations.BytesClassifyByTheTable : Prop :=
  ∀ (esc : Bool) (d : Byte),
    decode (.byte esc d) = .ok
      (if d = 0x7E#8 then .marker
       else if esc = true then .escaped d
       else if d = 0x7D#8 then .escape
       else .data d)

/-- No byte is illegal (30_encoding.md R62): in both escape states every byte is a well-formed operation, and that operation
answers a next state whatever the state is. -/
def Obligations.EveryByteIsAnOperation : Prop :=
  ∀ (esc : Bool) (d : Byte), ∃ i, decode (.byte esc d) = .ok i ∧ i.wellFormed = true ∧
    ∀ s : State, ∃ t, exec i s = .next t

/-- Whatever is decoded is an operation of the opcode table: the decoder answers only well-formed terms. -/
def Obligations.DecodedOperationsAreWellFormed : Prop :=
  ∀ (c : Code) (i : Instr), decode c = .ok i → i.wellFormed = true

/-- Decoding inverts encoding, for every well-formed operation and every operand. -/
def Obligations.DecodeInvertsEncode : Prop :=
  ∀ i : Instr, i.wellFormed = true → decode (encode i) = .ok i

/-- The input word of a well-formed byte-level or control operation (the MODEL's numbering, log entry 10) is read back as that
operation, and placed on the pins it is the operation the next step takes from its input. -/
def Obligations.InputWordsAreReadBackAndTaken : Prop :=
  ∀ (i : Instr) (nbits w : Nat), i.wellFormed = true → encodeWord i = some (nbits, w) →
    decodeTableWord nbits w = some i ∧ ∀ s : State, inputInstr (s.withFetchWord nbits w) = some i

/-- A few codes and the operations they stand for. The codes of `decode` are written out from the spec (30_encoding.md R60,
41_router.md R94, R96, 42_channel_decoder.md R106). The clauses on `decodeTableWord` rest on the MODEL's numbering of an
input cycle as a word, in which an 8-bit word is a byte that meets no pending escape (log entry 10, DESIGN CHOICE). -/
def Obligations.SpecCodesDecode : Prop :=
  decodeTableWord 8 0b01111110 = some .marker ∧ decodeTableWord 8 0b01111101 = some .escape ∧
  decodeTableWord 8 0b00011001 = some (.data 0x19#8) ∧ decode (.byte true 0b01011110#8) = .ok (.escaped 0x5E#8) ∧
  decode (.control false true) = .ok .clr ∧ decode (.control true true) = .ok .rst ∧
  decode (.frame 25 0x00#8) = .ok .route ∧ decode (.frame 4 0x01#8) = .ok .skip ∧ decode (.frame 1 0x00#8) = .ok .skip ∧
  decode (.view [0x05#8] true) = .ok (.decodeTooShort [0x05#8])

/-! ## DEFRAMER streams -/

/-- Unusual escape sequences (30_encoding.md R63), from any state with no escape pending: `7D 7E` acts as the marker alone and
leaves no byte, and `7D x` with any other `x`, `7D` included, leaves the one byte `x ^ 0x20` (room given). -/
def Obligations.UnusualEscapesAreDefined : Prop :=
  ∀ s : State, s.esc = false →
    (deframeEnd s [0x7D#8, 0x7E#8] = deframe s 0x7E#8) ∧
    (∀ x : Byte, x ≠ 0x7E#8 → s.accLen.toNat < Config.accCap → ∃ t, deframeEnd s [0x7D#8, x] = .next t ∧
      t.esc = false ∧ t.accLen.toNat = s.accLen.toNat + 1 ∧ Memory.read t.acc s.accLen.toNat = some (x ^^^ 0x20#8) ∧
      ∀ k, k ≠ s.accLen.toNat → Memory.read t.acc k = Memory.read s.acc k)

/-- Self-resynchronisation (40_deframer.md R88): after a MARKER the mode is Idle, and the frames of every following stream are
the same whatever stood before the MARKER. -/
def Obligations.MarkerResynchronises : Prop :=
  ∀ s s' : State, Inv s → Inv s' → ∃ t t', exec .marker s = .next t ∧ exec .marker s' = .next t' ∧
    mode t = .idle ∧ mode t' = .idle ∧ ∀ ds : List Byte, deframeFrames t ds = deframeFrames t' ds

/-- Round trip (40_deframer.md R90): `7E ++ stuff(P) ++ 7E` fed in any state emits `Frame{P, 0}` at the closing marker; the
opening marker emits the frame being collected, if there is one, and no other frame is emitted. -/
def Obligations.StuffedFramesRoundTrip : Prop :=
  ∀ (s : State) (P : List Byte), Inv s → 1 ≤ P.length → P.length ≤ Config.accCap →
    deframeFrames s (0x7E#8 :: (stuff P ++ [0x7E#8])) =
      (if s.accLen.toNat = 0 then [] else [{ bytes := content s, ovf := s.accOvf }]) ++ [{ bytes := P, ovf := false }]

/-- Transparency (40_deframer.md R91): bytes without marker and escape, between two markers, come out unmodified as the one
frame, from any Idle state. -/
def Obligations.PlainBytesAreTransparent : Prop :=
  ∀ (s : State) (P : List Byte), Inv s → mode s = .idle → 1 ≤ P.length → P.length ≤ Config.accCap →
    0x7E#8 ∉ P → 0x7D#8 ∉ P →
    deframeFrames s (0x7E#8 :: (P ++ [0x7E#8])) = [{ bytes := P, ovf := false }]

/-- Bytes before the first marker (40_deframer.md R89): from an Idle state they are emitted at the marker as a frame like any
other. -/
def Obligations.BytesBeforeTheFirstMarkerFormAFrame : Prop :=
  ∀ (s : State) (P : List Byte), Inv s → mode s = .idle → 1 ≤ P.length → P.length ≤ Config.accCap →
    deframeFrames s (stuff P ++ [0x7E#8]) = [{ bytes := P, ovf := false }]

/-- Overflow (40_deframer.md R84): a frame of more than `ACC_CAP` bytes is emitted with its first `ACC_CAP` bytes and
`ovf = 1`, and the mark is gone after its closing marker; CLR and RST clear it too. -/
def Obligations.OverflowedFramesAreCutAndMarked : Prop :=
  (∀ (s : State) (P : List Byte), Inv s → mode s = .idle → Config.accCap < P.length →
    deframeFrames s (stuff P ++ [0x7E#8]) = [{ bytes := P.take Config.accCap, ovf := true }] ∧
    ∃ t, deframeEnd s (stuff P ++ [0x7E#8]) = .next t ∧ t.accOvf = false) ∧
  (∀ s : State, s.accLen.toNat = Config.accCap → ∀ v : Byte, ∃ t, exec (.data v) s = .next t ∧
    t.accOvf = true ∧ t.accLen = s.accLen ∧ ∀ k, Memory.read t.acc k = Memory.read s.acc k) ∧
  (∀ s : State, ∃ t u, exec .clr s = .next t ∧ t.accOvf = false ∧ exec .rst s = .next u ∧ u.accOvf = false)

/-- Overflow and escapes (40_deframer.md R85): with a full accumulator an ESCAPE still sets the flag, an ESCAPED byte is lost and
still clears it, and `7D 5E 7E` emits the `ACC_CAP` bytes with `ovf = 1` and leaves no escape pending. -/
def Obligations.OverflowKeepsEscapeHandling : Prop :=
  ∀ s : State, Inv s → s.accLen.toNat = Config.accCap → s.esc = false →
    (∃ t, exec .escape s = .next t ∧ t.esc = true ∧ t.accLen = s.accLen ∧ t.accOvf = s.accOvf ∧
      ∀ d : Byte, ∃ u, exec (.escaped d) t = .next u ∧ u.esc = false ∧ u.accLen = s.accLen ∧ u.accOvf = true ∧
        content u = content s) ∧
    deframeFrames s [0x7D#8, 0x5E#8, 0x7E#8] = [{ bytes := content s, ovf := true }] ∧
    ∃ v, deframeEnd s [0x7D#8, 0x5E#8, 0x7E#8] = .next v ∧ v.esc = false

/-- Desynchronisation (40_deframer.md R93), from an Idle state: a lost marker merges two frames, a spurious marker splits one,
a lost escape character leaves the byte after it as plain data; no output marks it. -/
def Obligations.DesynchronisationIsNotDetected : Prop :=
  ∀ (s : State) (A B : List Byte), Inv s → mode s = .idle → 1 ≤ A.length → 1 ≤ B.length →
    A.length + B.length < Config.accCap →
    deframeFrames s (stuff A ++ stuff B ++ [0x7E#8]) = [{ bytes := A ++ B, ovf := false }] ∧
    deframeFrames s (stuff A ++ 0x7E#8 :: (stuff B ++ [0x7E#8])) =
      [{ bytes := A, ovf := false }, { bytes := B, ovf := false }] ∧
    deframeFrames s (stuff A ++ 0x5E#8 :: (stuff B ++ [0x7E#8])) = [{ bytes := A ++ 0x5E#8 :: B, ovf := false }]

/-- Agreement with the unbounded source (40_deframer.md R92): on every stream the frames are the source's, in the same order,
each cut to `ACC_CAP` bytes and marked exactly when it was longer. -/
def Obligations.FramesAgreeWithUnboundedSource : Prop :=
  ∀ (s : State) (ds : List Byte), Inv s → Fresh s →
    deframeFrames s ds = (readerFrames Reader.new ds).map fun f =>
      { bytes := f.take Config.accCap, ovf := decide (Config.accCap < f.length) }

/-! ## The ROUTER -/

/-- ROUTE (41_router.md R94, R95): with a control frame registered, the view is the frame less its byte 0, the operation is
DECODE of that view with the sampled `cfg_adjust`, the DECODER reports, and nothing but the DECODER registers changes. -/
def Obligations.RouteDecodesTheView : Prop :=
  ∀ s : State, s.frmValid = true → 2 ≤ s.frmLen.toNat → frmByte s 1 = 0x00#8 →
    decode (.frame s.frmLen.toNat (frmByte s 1)) = .ok .route ∧
    ∃ (view : List Byte) (t : State), view.length = s.frmLen.toNat - 1 ∧
      (∀ k, k < s.frmLen.toNat - 1 → view[k]? = some (frmByte s (k + 1))) ∧
      exec .route s = exec (decodeView view s.pins.cfgAdjust) s ∧
      exec .route s = .next t ∧ t.decDone = true ∧ SameDeframer s t ∧ SameFrame s t ∧ SameInput s t

/-- SKIP (41_router.md R96, R97): the operation only clears `dec_done`; and in a cycle without reset a registered frame of one
byte, or of another type, leaves `ch`, `ch_loaded` and `dec_status` as they are with `dec_done` at 0. -/
def Obligations.SkipLeavesTheDecoderAlone : Prop :=
  (∀ (len : Nat) (byte1 : Byte), len < 2 ∨ byte1 ≠ 0x00#8 → decode (.frame len byte1) = .ok .skip) ∧
  (∀ s : State, exec .skip s = .next { s with decDone := false }) ∧
  (∀ s : State, s.pins.rst = false → s.frmValid = true → s.frmLen.toNat < 2 ∨ frmByte s 1 ≠ 0x00#8 →
    ∃ t, step s = .next t ∧ t.decDone = false ∧ t.ch = s.ch ∧ t.chLoaded = s.chLoaded ∧ t.decStatus = s.decStatus)

/-- The ROUTER and the DECODER see only `frm_len` and `frm_buf[1..23]` (41_router.md R98, R99, 42_channel_decoder.md R116): two
states that agree on those, on `frm_valid`, on `cfg_adjust` and on the DECODER registers leave the decode stage with the
same DECODER registers, whatever their overflow marks, `LEN`, CRC and further bytes are. -/
def Obligations.RoutingIgnoresOverflowLenAndCrc : Prop :=
  ∀ s s' : State, s.frmValid = s'.frmValid → s.frmLen = s'.frmLen → s.pins.cfgAdjust = s'.pins.cfgAdjust →
    (∀ k, 1 ≤ k → k ≤ 23 → k < s.frmLen.toNat → frmByte s k = frmByte s' k) → SameDecoder s s' →
    ∃ t t', decodeStage s = .next t ∧ decodeStage s' = .next t' ∧ SameDecoder t t'

/-! ## The DECODER -/

/-- DECODE of a control view (42_channel_decoder.md R109, R113, R114): channel `i` is the number of bits `11*i .. 11*i+10` of the
little-endian stream of the 22 bytes after the type byte, scaled to `(5*r) div 8 + 880` with `adjust = 1` and as it is with
`adjust = 0`; `ch_loaded`, `dec_status`, `dec_done` are written and nothing outside the DECODER registers changes. -/
def Obligations.DecodeOkWritesSixteenChannels : Prop :=
  ∀ (view : List Byte) (adjust : Bool) (s : State), 23 ≤ view.length → view.head? = some 0x00#8 →
    ∃ t, exec (.decodeOk view adjust) s = .next t ∧
      (∀ i : Fin 16, t.ch[i].toNat =
        if adjust = true then 5 * sourceChannel (view.drop 1) i.val / 8 + 880 else sourceChannel (view.drop 1) i.val) ∧
      t.chLoaded = true ∧ t.decStatus = 0b00#2 ∧ t.decDone = true ∧
      SameDeframer s t ∧ SameFrame s t ∧ SameInput s t

/-- A short view (42_channel_decoder.md R106, R108): whatever its first byte is, it is DECODE_TOO_SHORT and reports
FRAME_TOO_SHORT, and only `dec_status` and `dec_done` are written. -/
def Obligations.ShortViewsReportTooShort : Prop :=
  ∀ (view : List Byte) (adjust : Bool) (s : State), view.length < 23 →
    decodeView view adjust = .decodeTooShort view ∧
    exec (.decodeTooShort view) s = .next { s with decStatus := 0b01#2, decDone := true }

/-- A long enough view of another type (42_channel_decoder.md R107): it is DECODE_BAD_TYPE and reports INVALID_FRAME_TYPE, and
only `dec_status` and `dec_done` are written; through the ROUTER it cannot occur (41_router.md R100): no cycle without reset
ends with `dec_done = 1` and that code. -/
def Obligations.OtherTypesReportInvalidType : Prop :=
  (∀ (view : List Byte) (adjust : Bool) (s : State), 23 ≤ view.length → view.head? ≠ some 0x00#8 →
    decodeView view adjust = .decodeBadType view ∧
    exec (.decodeBadType view) s = .next { s with decStatus := 0b10#2, decDone := true }) ∧
  (∀ s : State, s.pins.rst = false → ∃ t, step s = .next t ∧ (t.decDone = true → t.decStatus ≠ 0b10#2))

/-- The byte and bit order (20_memory.md R48, R49): bit `8k+j` of `MemRead(a, n)` is bit `j` of `frm_buf[a+k]`; bit `8k+j` of `S` is bit `j` of payload byte `k`, and `S` is `MemRead(2, 22)`
of a registered frame of at least 24 bytes. -/
def Obligations.StreamIsLittleEndian : Prop :=
  (∀ (s : State) (a n k j : Nat), k < n → j < 8 →
    (memRead s a n).getLsbD (8 * k + j) = (frmByte s (a + k)).getLsbD j) ∧
  (∀ payload : List Byte, payload.length = 22 → ∀ k j, k < 22 → j < 8 →
    (streamOf payload).getLsbD (8 * k + j) = (payload.getD k 0#8).getLsbD j) ∧
  (∀ s : State, 24 ≤ s.frmLen.toNat → memRead s 2 22 = streamOf (((frameView s).drop 1).take 22))

/-- The shifter form (42_channel_decoder.md R110): it gives every channel's field, and where the shift is at most 5, channel 15
among them, the window's third byte may be any value. -/
def Obligations.ShifterFormGivesTheField : Prop :=
  ∀ (payload : List Byte) (i : Fin 16) (x : Byte), payload.length = 22 →
    windowField (if 11 * i.val % 8 ≤ 5 then x else payload.getD (11 * i.val / 8 + 2) 0#8)
        (payload.getD (11 * i.val / 8 + 1) 0#8) (payload.getD (11 * i.val / 8) 0#8) (11 * i.val % 8) =
      (rawChannel (streamOf payload) i.val).setWidth 24

/-- The field table (30_encoding.md R69): each channel as the concatenation of payload bits that the table gives, and the fields
tile the stream: bit `n` of it is bit `n mod 11` of channel `n div 11`. -/
def Obligations.FieldsFollowTheTable : Prop :=
  (∀ (S : ChannelStream) (n : Nat), n < 176 → (rawChannel S (n / 11)).getLsbD (n % 11) = S.getLsbD n) ∧
  ∀ p : Fin 22 → Byte,
    rawChannel (streamOf (List.ofFn p)) 0 = (p 1).extractLsb 2 0 ++ (p 0).extractLsb 7 0 ∧
    rawChannel (streamOf (List.ofFn p)) 1 = (p 2).extractLsb 5 0 ++ (p 1).extractLsb 7 3 ∧
    rawChannel (streamOf (List.ofFn p)) 2 = (p 4).extractLsb 0 0 ++ (p 3).extractLsb 7 0 ++ (p 2).extractLsb 7 6 ∧
    rawChannel (streamOf (List.ofFn p)) 3 = (p 5).extractLsb 3 0 ++ (p 4).extractLsb 7 1 ∧
    rawChannel (streamOf (List.ofFn p)) 4 = (p 6).extractLsb 6 0 ++ (p 5).extractLsb 7 4 ∧
    rawChannel (streamOf (List.ofFn p)) 5 = (p 8).extractLsb 1 0 ++ (p 7).extractLsb 7 0 ++ (p 6).extractLsb 7 7 ∧
    rawChannel (streamOf (List.ofFn p)) 6 = (p 9).extractLsb 4 0 ++ (p 8).extractLsb 7 2 ∧
    rawChannel (streamOf (List.ofFn p)) 7 = (p 10).extractLsb 7 0 ++ (p 9).extractLsb 7 5 ∧
    rawChannel (streamOf (List.ofFn p)) 8 = (p 12).extractLsb 2 0 ++ (p 11).extractLsb 7 0 ∧
    rawChannel (streamOf (List.ofFn p)) 9 = (p 13).extractLsb 5 0 ++ (p 12).extractLsb 7 3 ∧
    rawChannel (streamOf (List.ofFn p)) 10 = (p 15).extractLsb 0 0 ++ (p 14).extractLsb 7 0 ++ (p 13).extractLsb 7 6 ∧
    rawChannel (streamOf (List.ofFn p)) 11 = (p 16).extractLsb 3 0 ++ (p 15).extractLsb 7 1 ∧
    rawChannel (streamOf (List.ofFn p)) 12 = (p 17).extractLsb 6 0 ++ (p 16).extractLsb 7 4 ∧
    rawChannel (streamOf (List.ofFn p)) 13 = (p 19).extractLsb 1 0 ++ (p 18).extractLsb 7 0 ++ (p 17).extractLsb 7 7 ∧
    rawChannel (streamOf (List.ofFn p)) 14 = (p 20).extractLsb 4 0 ++ (p 19).extractLsb 7 2 ∧
    rawChannel (streamOf (List.ofFn p)) 15 = (p 21).extractLsb 7 0 ++ (p 20).extractLsb 7 5

/-- The ranges (42_channel_decoder.md R118): after a decode with outcome OK each of the 16 registers is at most 2047 raw, and
from 880 to 2159 scaled. -/
def Obligations.ChannelValuesAreInRange : Prop :=
  ∀ (view : List Byte) (s : State), 23 ≤ view.length → view.head? = some 0x00#8 →
    (∃ t, exec (.decodeOk view false) s = .next t ∧ ∀ i : Fin 16, t.ch[i].toNat ≤ 2047) ∧
    (∃ t, exec (.decodeOk view true) s = .next t ∧ ∀ i : Fin 16, 880 ≤ t.ch[i].toNat ∧ t.ch[i].toNat ≤ 2159)

/-- Scaling is monotonic and not injective (42_channel_decoder.md R119). -/
def Obligations.ScalingIsMonotonic : Prop :=
  (∀ a b : RawValue, a < b → scale a ≤ scale b) ∧
  scale 0#11 = 880#12 ∧ scale 1#11 = 880#12 ∧ scale 992#11 = 1500#12 ∧ scale 993#11 = 1500#12

/-- What a decode depends on (42_channel_decoder.md R116, R121): the first 23 bytes of the view and whether it is shorter than
that, for the outcome and for every register; a view of 23 bytes or more decodes as its first 23 bytes do. -/
def Obligations.DecodeReadsOnlyTwentyThreeBytes : Prop :=
  ∀ (v v' : List Byte) (adjust : Bool) (s : State),
    v.length = v'.length ∨ (23 ≤ v.length ∧ 23 ≤ v'.length) → v.take 23 = v'.take 23 →
    exec (decodeView v adjust) s = exec (decodeView v' adjust) s

/-! ## The cycle -/

/-- A step runs the decoded operations (70_reset_and_hazards.md R144): with `rst` the reset operation; otherwise the frame-level
operation selected by `frm_valid`, `frm_len` and `frm_buf[1]` (or `dec_done <- 0`), and then the input operation decoded from
the pins and `esc` before the edge (or `frm_valid <- 0`). That the model applies the decode stage first and the deframer
stage after it is its reading of R144, which makes them simultaneous (log entry 1, DEDUCED). Around them the step only takes
the next input cycle, which is the MODEL's choice (log entries 2 and 9, DESIGN CHOICE): the pins become the trace's next
entry, or, when the trace has ended, an idle cycle with free `cfg_adjust` and `in_data` (log entry 8, DESIGN CHOICE), and
the counter of free values advances. -/
def Obligations.StepRunsTheDecodedOperations : Prop :=
  (∀ s : State, s.pins.rst = true → step s = andThen (exec .rst s) fun t => .next (nextInput t)) ∧
  (∀ s : State, s.pins.rst = false →
    step s = andThen
      (if s.frmValid = true then exec (decodeFrame s.frmLen.toNat (frmByte s 1)) s else .next { s with decDone := false }) fun t =>
      andThen
        (match decodePins s.esc s.pins with
         | .ok i => exec i t
         | .error _ => .next { t with frmValid := false }) fun u =>
        .next (nextInput u)) ∧
  (∀ (s : State) (p : Pins) (rest : List Pins), s.trace = p :: rest →
    nextInput s = { s with pins := p, trace := rest, freeIndex := s.freeIndex + 1 }) ∧
  (∀ s : State, s.trace = [] →
    nextInput s =
      { s with
        pins := { rst := false, clr := false, inValid := false,
                  inData := Config.freeInData s.freeIndex, cfgAdjust := Config.freeAdjust s.freeIndex }
        freeIndex := s.freeIndex + 1 })

/-- The CORE never stops (60_exceptions.md R131, 70_reset_and_hazards.md R146): every step, from every state and with every
input, answers a next state. -/
def Obligations.StepAlwaysAnswers : Prop :=
  ∀ s : State, ∃ t, step s = .next t

/-- What the decode stage does to the DECODER registers in a cycle without reset (42_channel_decoder.md R115, 41_router.md R101):
no run, `FRAME_TOO_SHORT` for routed frames of 2 to 23 bytes, `OK` for routed frames of 24 bytes or more. -/
def Obligations.DecodeOutcomeFollowsTheFrame : Prop :=
  ∀ s : State, s.pins.rst = false → ∃ t, step s = .next t ∧
    (s.frmValid = false ∨ s.frmLen.toNat < 2 ∨ frmByte s 1 ≠ 0x00#8 →
      t.decDone = false ∧ t.decStatus = s.decStatus ∧ t.ch = s.ch ∧ t.chLoaded = s.chLoaded) ∧
    (s.frmValid = true → frmByte s 1 = 0x00#8 → 2 ≤ s.frmLen.toNat → s.frmLen.toNat ≤ 23 →
      t.decDone = true ∧ t.decStatus = 0b01#2 ∧ t.ch = s.ch ∧ t.chLoaded = s.chLoaded) ∧
    (s.frmValid = true → frmByte s 1 = 0x00#8 → 24 ≤ s.frmLen.toNat →
      t.decDone = true ∧ t.decStatus = 0b00#2 ∧ t.chLoaded = true ∧
      ∀ i : Fin 16, t.ch[i] = channelValue s.pins.cfgAdjust (rawChannel (memRead s 2 22) i.val))

/-- The stages write disjoint registers (70_reset_and_hazards.md R148): the decode stage nothing of the DEFRAMER and frame
registers, the deframer stage of a cycle without reset nothing of the DECODER registers. -/
def Obligations.StagesWriteDisjointRegisters : Prop :=
  ∀ s u : State, s.pins.rst = false →
    (∃ t, decodeStage s = .next t ∧ SameDeframer s t ∧ SameFrame s t ∧ SameInput s t) ∧
    (∃ t, deframerStage (inputInstr s) u = .next t ∧ SameDecoder u t ∧ SameInput u t)

/-- No byte, no step (40_deframer.md R82, 70_reset_and_hazards.md R154): over any number of cycles without a byte and without
control pins the DEFRAMER registers keep their values, and no frame is emitted. -/
def Obligations.SilentSourceStallsTheDeframer : Prop :=
  ∀ (s : State) (ps : List Pins), (∀ p ∈ ps, p.rst = false ∧ p.clr = false ∧ p.inValid = false) →
    cycleFrames s ps = [] ∧ ∃ t, clockEnd s ps = .next t ∧ SameDeframer s t

/-- The frame registers hold until the next emission (10_state.md R25, 40_deframer.md R83): in a cycle without reset, either a
frame is emitted, by a MARKER that found a non-empty accumulator, or the registers keep their values and `frm_valid` is 0. -/
def Obligations.FrameHoldsUntilTheNextEmission : Prop :=
  ∀ s : State, s.pins.rst = false → ∃ t, step s = .next t ∧
    ((s.pins.clr = false ∧ s.pins.inValid = true ∧ s.pins.inData = 0x7E#8 ∧ 0 < s.accLen.toNat ∧
        t.frmValid = true ∧ t.frmLen = s.accLen ∧ t.frmOvf = s.accOvf ∧
        ∀ k, k < s.accLen.toNat → Memory.read t.frmBuf k = Memory.read s.acc k) ∨
      (¬ (s.pins.clr = false ∧ s.pins.inValid = true ∧ s.pins.inData = 0x7E#8 ∧ 0 < s.accLen.toNat) ∧
        t.frmValid = false ∧ t.frmLen = s.frmLen ∧ t.frmOvf = s.frmOvf ∧ t.frmBuf = s.frmBuf))

/-- Latency (70_reset_and_hazards.md R145): a frame whose closing marker is accepted at one edge is on the frame port after it,
and what the ROUTER and the DECODER make of it (`OK` and the channels, or `FRAME_TOO_SHORT`) is on the DECODER's outputs with
`dec_done = 1` after the next edge, whatever that cycle's input is. -/
def Obligations.DecodeFollowsTheMarkerByTwoEdges : Prop :=
  ∀ (s : State) (p : Pins) (rest : List Pins),
    s.pins.rst = false → s.pins.clr = false → s.pins.inValid = true → s.pins.inData = 0x7E#8 →
    0 < s.accLen.toNat → s.trace = p :: rest → p.rst = false →
    ∃ t u, step s = .next t ∧ step t = .next u ∧
      t.frmValid = true ∧ t.frmLen = s.accLen ∧ t.frmOvf = s.accOvf ∧
      (∀ k, k < s.accLen.toNat → Memory.read t.frmBuf k = Memory.read s.acc k) ∧
      (24 ≤ s.accLen.toNat → Memory.read s.acc 1 = some 0x00#8 →
        u.decDone = true ∧ u.decStatus = 0b00#2 ∧ u.chLoaded = true ∧
        ∀ i : Fin 16, u.ch[i] = channelValue p.cfgAdjust (rawChannel (memRead t 2 22) i.val)) ∧
      (2 ≤ s.accLen.toNat → s.accLen.toNat ≤ 23 → Memory.read s.acc 1 = some 0x00#8 →
        u.decDone = true ∧ u.decStatus = 0b01#2 ∧ u.ch = t.ch ∧ u.chLoaded = t.chLoaded)

/-- Minimum spacing (70_reset_and_hazards.md R149): an emission leaves `acc_len = 0`, and no frame is emitted at the edge after
it; after a cycle that ends in an OK decode the following 24 cycles, whatever their inputs, hold no OK decode. Between two OK decodes at least 25 bytes
are accepted, whatever the inputs are, a reset or a clear among them: in the cycles from the first decode cycle up to the
cycle before the second one, where the frame of the second is emitted. -/
def Obligations.EmissionsAndDecodesAreSpaced : Prop :=
  (∀ s t : State, step s = .next t → t.frmValid = true →
    t.accLen.toNat = 0 ∧ ∀ u : State, step t = .next u → u.frmValid = false) ∧
  (∀ s t : State, Inv s → step s = .next t → t.decDone = true → t.decStatus = 0b00#2 →
    ∀ ps : List Pins, ps.length ≤ 24 → ∀ e ∈ decodeEvents t ps, e.status ≠ 0b00#2) ∧
  (∀ s t : State, Inv s → step s = .next t → t.decDone = true → t.decStatus = 0b00#2 →
    ∀ (ps : List Pins) (p : Pins) (u v : State), clockEnd t ps = .next u → clock u p = .next v →
      v.decDone = true → v.decStatus = 0b00#2 → 25 ≤ (acceptedBytes (s.pins :: ps)).length)

/-- `cfg_adjust` is read only in a decode cycle (70_reset_and_hazards.md R152): with `frm_valid = 0` its level changes no
register. -/
def Obligations.AdjustIsReadOnlyInADecodeCycle : Prop :=
  ∀ (s : State) (b : Bool), s.frmValid = false →
    step { s with pins := { s.pins with cfgAdjust := b } } = step s

/-- The old channel values influence nothing (10_state.md R40): with any other values in `ch`, the step gives the same state but
for `ch`, and `ch` is either written alike or kept alike. -/
def Obligations.OldChannelValuesInfluenceNothing : Prop :=
  ∀ (s : State) (vs : Vector ChannelValue 16), ∃ t t', step s = .next t ∧ step { s with ch := vs } = .next t' ∧
    t' = { t with ch := t'.ch } ∧ (t'.ch = t.ch ∨ (t.ch = s.ch ∧ t'.ch = vs))

/-! ## Invariants and whole runs -/

/-- The state after reset satisfies the invariant. -/
def Obligations.InvariantHoldsAtReset : Prop := Inv State.reset

/-- Every step keeps the invariant (10_state.md R29, R30, R32): from every state that satisfies it, with every input. -/
def Obligations.StepKeepsTheInvariant : Prop :=
  ∀ s t : State, Inv s → step s = .next t → Inv t

/-- The invariants of reachable states (10_state.md R29, R30): after any input cycles from reset. -/
def Obligations.ReachableLengthsAreBounded : Prop :=
  ∀ ps : List Pins, ∃ t, clockEnd State.reset ps = .next t ∧
    t.accLen.toNat ≤ Config.accCap ∧ (t.accOvf = true → t.accLen.toNat = Config.accCap) ∧
    t.frmLen.toNat ≤ Config.accCap ∧ (t.frmOvf = true → t.frmLen.toNat = Config.accCap) ∧
    (t.frmValid = true → 1 ≤ t.frmLen.toNat)

/-- Every step keeps both byte spaces in canonical form, from every state in which they are. -/
def Obligations.StepKeepsMemoryCanonical : Prop :=
  ∀ s t : State, Memory.wf s.acc → Memory.wf s.frmBuf → step s = .next t → Memory.wf t.acc ∧ Memory.wf t.frmBuf

/-- `LEN_W` (00_scope.md R10) is the least width for `ACC_CAP`, `acc_len` and `frm_len` have that width, and the increment of
an append (20_memory.md R44) is the sum in that width and never wraps. That a length at or above `ACC_CAP` counts as full is
the MODEL's reading (log entry 7). -/
def Obligations.LengthsFitTheirWidth : Prop :=
  24 ≤ Config.accCap ∧ Config.accCap < 2 ^ Config.lenW ∧ (∀ w, Config.accCap < 2 ^ w → Config.lenW ≤ w) ∧
  (∀ s : State, s.accLen.toNat < 2 ^ Config.lenW ∧ s.frmLen.toNat < 2 ^ Config.lenW) ∧
  ∀ (s : State) (d : Byte), ∃ t, exec (.data d) s = .next t ∧
    (s.accLen.toNat < Config.accCap →
      t.accLen = s.accLen + 1#Config.lenW ∧ t.accLen.toNat = s.accLen.toNat + 1) ∧
    (Config.accCap ≤ s.accLen.toNat → t.accLen = s.accLen)

/-- What the output ports carry (10_state.md R28): each port the register of its name, and `frm_buf` all its bytes. A byte below
`frm_len` is the frame's, under the invariant; the bytes of `acc` and `frm_buf` with a value are then exactly those below the
lengths (20_memory.md R47). The status read gives the name of the code (30_encoding.md R70), and under the invariant there is
always one (R32). What the ports carry without ground is the MODEL's choice (log entries 3, 4, 5 and 17): a byte at or beyond
`frm_len` is a free value, and so is every channel in the state right after RST; the reserved code is refused. -/
def Obligations.PortsCarryRegistersAndFreeValues : Prop :=
  (∀ s : State,
    (outputPorts s).frmValid = s.frmValid ∧ (outputPorts s).frmLen = s.frmLen ∧ (outputPorts s).frmOvf = s.frmOvf ∧
    (outputPorts s).ch = s.ch ∧ (outputPorts s).chLoaded = s.chLoaded ∧ (outputPorts s).decDone = s.decDone ∧
    (outputPorts s).decStatus = s.decStatus ∧
    (∀ k : Fin Config.accCap, (outputPorts s).frmBuf[k] = readFrameByte s k) ∧
    (∀ i : Fin 16, readChannel s i = s.ch[i]) ∧
    (s.decStatus = 0b00#2 → readStatus s = .ok .ok) ∧
    (s.decStatus = 0b01#2 → readStatus s = .ok .frameTooShort) ∧
    (s.decStatus = 0b10#2 → readStatus s = .ok .invalidFrameType) ∧
    (s.decStatus = 0b11#2 → readStatus s = .error .reservedStatus) ∧
    (∀ i : Fin 16, ∃ t, exec .rst s = .next t ∧ readChannel t i = Config.freeChannel s.freeIndex i.val)) ∧
  ∀ s : State, Inv s →
    (∀ k, (Memory.read s.acc k).isSome = decide (k < s.accLen.toNat)) ∧
    (∀ k, (Memory.read s.frmBuf k).isSome = decide (k < s.frmLen.toNat)) ∧
    (∀ k : Fin Config.accCap, k.val < s.frmLen.toNat → Memory.read s.frmBuf k.val = some (readFrameByte s k)) ∧
    (∀ k : Fin Config.accCap, s.frmLen.toNat ≤ k.val → readFrameByte s k = Config.freeFrameByte s.freeIndex k.val) ∧
    (∃ c, readStatus s = .ok c ∧ statusCode c = s.decStatus)

/-- Cycles and transactions agree (70_reset_and_hazards.md R155, 20_memory.md R55): without control pins, the frames seen cycle
by cycle are the frames of the accepted bytes taken one transaction at a time, however the bytes are spread over cycles. -/
def Obligations.CycleFramesAreTransactionFrames : Prop :=
  ∀ (s : State) (ps : List Pins), Inv s → (∀ p ∈ ps, p.rst = false ∧ p.clr = false) →
    cycleFrames s ps = deframeFrames s (acceptedBytes ps)

/-- Decoding agrees with the unbounded source (42_channel_decoder.md R117): for every input stream without reset, from a state
that holds no frame, the decode outcomes and channel values are those of the source's reader, caller and decoder. -/
def Obligations.DecodingAgreesWithUnboundedSource : Prop :=
  ∀ (s : State) (ps : List Pins), Inv s → Fresh s → s.frmValid = false → (∀ p ∈ ps, p.rst = false) →
    decodeEvents s ps = sourceEvents { reader := Reader.new, returned := none } ps

/-- The channels between a reset and the first OK decode (10_state.md R26, R39, 42_channel_decoder.md R115): over any input cycles
without reset in which no decode is OK, `ch_loaded` stays 0 and the channel port keeps what the reset left, which is the
MODEL's free value (log entry 3, DESIGN CHOICE); an OK decode sets `ch_loaded`, and only a reset takes it back. -/
def Obligations.ChannelsStayFreeUntilTheFirstDecode : Prop :=
  (∀ (s : State) (ps : List Pins), (∀ p ∈ ps, p.rst = false) → ∃ t, exec .rst s = .next t ∧
    ((∀ e ∈ decodeEvents t ps, e.status ≠ 0b00#2) → ∃ u, clockEnd t ps = .next u ∧ u.chLoaded = false ∧
      ∀ i : Fin 16, readChannel u i = Config.freeChannel s.freeIndex i.val)) ∧
  ∀ s : State, s.pins.rst = false → ∃ t, step s = .next t ∧
    (t.decDone = true → t.decStatus = 0b00#2 → t.chLoaded = true) ∧
    (¬ (t.decDone = true ∧ t.decStatus = 0b00#2) → t.chLoaded = s.chLoaded ∧ ∀ i : Fin 16, readChannel t i = readChannel s i) ∧
    (s.chLoaded = true → t.chLoaded = true)
end

