-- ==== Sys2Proof/Laws/Memory.lean ====
section
/-!
SUPPORT. The laws of the byte spaces: read after write, the canonical form, and what a write at the end and a cut do.
-/

namespace Sys2Proof.Machine

@[simp] theorem Memory.read_nil (a : Nat) : Memory.read [] a = none := rfl

/-- A byte reads as what was last written to it. -/
@[simp] theorem Memory.read_write_same (m : Memory) (a : Nat) (v : Byte) :
    Memory.read (Memory.write m a v) a = some v := by
  induction m with
  | nil => simp [Memory.write, Memory.read]
  | cons c m ih =>
    obtain ⟨k, b⟩ := c
    simp only [Memory.write]
    split
    · simp [Memory.read]
    · split
      · simp [Memory.read]
      · rename_i h
        simp [Memory.read, Ne.symm h, ih]

/-- A write leaves every other byte alone. -/
theorem Memory.read_write_other (m : Memory) {a x : Nat} (v : Byte) (h : x ≠ a) :
    Memory.read (Memory.write m a v) x = Memory.read m x := by
  induction m with
  | nil => simp [Memory.write, Memory.read, Ne.symm h]
  | cons c m ih =>
    obtain ⟨k, b⟩ := c
    simp only [Memory.write]
    split
    · simp [Memory.read, Ne.symm h]
    · split
      · rename_i hak
        subst hak
        simp [Memory.read, Ne.symm h]
      · simp [Memory.read, ih]

/-- The addresses listed after a write: the written one and those listed before. -/
theorem Memory.mem_keys_write (m : Memory) (a x : Nat) (v : Byte) :
    x ∈ (Memory.write m a v).map Prod.fst ↔ x = a ∨ x ∈ m.map Prod.fst := by
  induction m with
  | nil => simp [Memory.write]
  | cons c m ih =>
    obtain ⟨k, b⟩ := c
    simp only [Memory.write]
    split
    · simp
    · split
      · rename_i hak
        subst hak
        simp
      · simp only [List.map_cons, List.mem_cons, ih]
        tauto

/-- A write keeps the canonical form. -/
theorem Memory.wf_write {m : Memory} (h : Memory.wf m) (a : Nat) (v : Byte) : Memory.wf (Memory.write m a v) := by
  induction m with
  | nil => simp [Memory.wf, Memory.write]
  | cons c m ih =>
    obtain ⟨k, b⟩ := c
    have hk : ∀ x ∈ m.map Prod.fst, k < x := (List.pairwise_cons.mp h).1
    have hm : Memory.wf m := (List.pairwise_cons.mp h).2
    simp only [Memory.write]
    split
    · rename_i hak
      refine List.pairwise_cons.mpr ⟨fun x hx => ?_, h⟩
      rcases List.mem_cons.mp hx with rfl | hx
      · exact hak
      · exact hak.trans (hk x hx)
    · split
      · rename_i hak
        subst hak
        exact List.pairwise_cons.mpr ⟨hk, hm⟩
      · rename_i hlt hne
        refine List.pairwise_cons.mpr ⟨fun x hx => ?_, ih hm⟩
        rcases (Memory.mem_keys_write m a x v).mp hx with rfl | hx
        · exact lt_of_le_of_ne (not_lt.mp hlt) (Ne.symm hne)
        · exact hk x hx

/-- A cut keeps the canonical form. -/
theorem Memory.wf_below {m : Memory} (h : Memory.wf m) (n : Nat) : Memory.wf (Memory.below n m) :=
  h.sublist ((List.filter_sublist).map Prod.fst)

/-- The empty space is in canonical form. -/
theorem Memory.wf_nil : Memory.wf [] := List.Pairwise.nil

/-- After reset both byte spaces are in canonical form. -/
theorem reset_memory_wf : Memory.wf State.reset.acc ∧ Memory.wf State.reset.frmBuf :=
  ⟨Memory.wf_nil, Memory.wf_nil⟩

/-- A cut at `n` keeps the bytes below `n` and leaves no value at or above it. -/
theorem Memory.read_below (m : Memory) (n a : Nat) :
    Memory.read (Memory.below n m) a = if a < n then Memory.read m a else none := by
  induction m with
  | nil => simp [Memory.below]
  | cons c m ih =>
    obtain ⟨k, b⟩ := c
    by_cases hk : k < n
    · have e : Memory.below n ((k, b) :: m) = (k, b) :: Memory.below n m := by simp [Memory.below, hk]
      rw [e]
      by_cases hka : k = a
      · subst hka
        simp [Memory.read, hk]
      · simp [Memory.read, hka, ih]
    · have e : Memory.below n ((k, b) :: m) = Memory.below n m := by simp [Memory.below, hk]
      rw [e, ih]
      by_cases hka : k = a
      · subst hka
        simp [hk]
      · simp [Memory.read, hka]

/-- Writing above every listed address puts the byte at the end of the list. -/
theorem Memory.write_end (m : Memory) (a : Nat) (v : Byte) (h : ∀ x ∈ m.map Prod.fst, x < a) :
    Memory.write m a v = m ++ [(a, v)] := by
  induction m with
  | nil => rfl
  | cons c m ih =>
    obtain ⟨k, b⟩ := c
    have hk : k < a := h k (by simp)
    have hm : ∀ x ∈ m.map Prod.fst, x < a := fun x hx => h x (by simp [hx])
    simp only [Memory.write]
    rw [if_neg (by omega), if_neg (by omega), ih hm]
    rfl

/-- A space that lists exactly the addresses below `n` is not changed by the cut at `n`. -/
theorem Memory.below_eq_self {m : Memory} {n : Nat} (h : m.map Prod.fst = List.range n) : Memory.below n m = m := by
  refine List.filter_eq_self.mpr fun c hc => ?_
  have : c.1 ∈ m.map Prod.fst := List.mem_map_of_mem hc
  rw [h, List.mem_range] at this
  simpa using this

/-- A space that lists exactly the addresses below `n` is in canonical form. -/
theorem Memory.wf_of_range {m : Memory} {n : Nat} (h : m.map Prod.fst = List.range n) : Memory.wf m := by
  unfold Memory.wf
  rw [h]
  exact List.pairwise_lt_range

/-- Appending at `n` to a space that lists exactly the addresses below `n`. -/
theorem Memory.keys_write_end {m : Memory} {n : Nat} (v : Byte) (h : m.map Prod.fst = List.range n) :
    (Memory.write m n v).map Prod.fst = List.range (n + 1) := by
  rw [Memory.write_end m n v (by rw [h]; simp), List.map_append, h, List.range_succ]
  rfl

end Sys2Proof.Machine
end

