-- ==== Sys2Proof/Laws/State.lean ====
section
/-!
SUPPORT. What each named update leaves in each field of State: one lemma per field per update.
-/

namespace Sys2Proof.Machine

/-! ## setEsc -/

@[simp] theorem setEsc_esc (b : Bool) (s : State) : (setEsc b s).esc = b := rfl
@[simp] theorem setEsc_acc (b : Bool) (s : State) : (setEsc b s).acc = s.acc := rfl
@[simp] theorem setEsc_accLen (b : Bool) (s : State) : (setEsc b s).accLen = s.accLen := rfl
@[simp] theorem setEsc_accOvf (b : Bool) (s : State) : (setEsc b s).accOvf = s.accOvf := rfl
@[simp] theorem setEsc_frmBuf (b : Bool) (s : State) : (setEsc b s).frmBuf = s.frmBuf := rfl
@[simp] theorem setEsc_frmLen (b : Bool) (s : State) : (setEsc b s).frmLen = s.frmLen := rfl
@[simp] theorem setEsc_frmOvf (b : Bool) (s : State) : (setEsc b s).frmOvf = s.frmOvf := rfl
@[simp] theorem setEsc_frmValid (b : Bool) (s : State) : (setEsc b s).frmValid = s.frmValid := rfl
@[simp] theorem setEsc_ch (b : Bool) (s : State) : (setEsc b s).ch = s.ch := rfl
@[simp] theorem setEsc_chLoaded (b : Bool) (s : State) : (setEsc b s).chLoaded = s.chLoaded := rfl
@[simp] theorem setEsc_decDone (b : Bool) (s : State) : (setEsc b s).decDone = s.decDone := rfl
@[simp] theorem setEsc_decStatus (b : Bool) (s : State) : (setEsc b s).decStatus = s.decStatus := rfl
@[simp] theorem setEsc_pins (b : Bool) (s : State) : (setEsc b s).pins = s.pins := rfl
@[simp] theorem setEsc_trace (b : Bool) (s : State) : (setEsc b s).trace = s.trace := rfl
@[simp] theorem setEsc_freeIndex (b : Bool) (s : State) : (setEsc b s).freeIndex = s.freeIndex := rfl

/-! ## storeByte -/

@[simp] theorem storeByte_esc (v : Byte) (s : State) : (storeByte v s).esc = s.esc := rfl
@[simp] theorem storeByte_acc (v : Byte) (s : State) : (storeByte v s).acc = Memory.write s.acc s.accLen.toNat v := rfl
@[simp] theorem storeByte_accLen (v : Byte) (s : State) : (storeByte v s).accLen = lenSucc s.accLen := rfl
@[simp] theorem storeByte_accOvf (v : Byte) (s : State) : (storeByte v s).accOvf = s.accOvf := rfl
@[simp] theorem storeByte_frmBuf (v : Byte) (s : State) : (storeByte v s).frmBuf = s.frmBuf := rfl
@[simp] theorem storeByte_frmLen (v : Byte) (s : State) : (storeByte v s).frmLen = s.frmLen := rfl
@[simp] theorem storeByte_frmOvf (v : Byte) (s : State) : (storeByte v s).frmOvf = s.frmOvf := rfl
@[simp] theorem storeByte_frmValid (v : Byte) (s : State) : (storeByte v s).frmValid = s.frmValid := rfl
@[simp] theorem storeByte_ch (v : Byte) (s : State) : (storeByte v s).ch = s.ch := rfl
@[simp] theorem storeByte_chLoaded (v : Byte) (s : State) : (storeByte v s).chLoaded = s.chLoaded := rfl
@[simp] theorem storeByte_decDone (v : Byte) (s : State) : (storeByte v s).decDone = s.decDone := rfl
@[simp] theorem storeByte_decStatus (v : Byte) (s : State) : (storeByte v s).decStatus = s.decStatus := rfl
@[simp] theorem storeByte_pins (v : Byte) (s : State) : (storeByte v s).pins = s.pins := rfl
@[simp] theorem storeByte_trace (v : Byte) (s : State) : (storeByte v s).trace = s.trace := rfl
@[simp] theorem storeByte_freeIndex (v : Byte) (s : State) : (storeByte v s).freeIndex = s.freeIndex := rfl

/-! ## dropContent -/

@[simp] theorem dropContent_esc (s : State) : (dropContent s).esc = s.esc := rfl
@[simp] theorem dropContent_acc (s : State) : (dropContent s).acc = [] := rfl
@[simp] theorem dropContent_accLen (s : State) : (dropContent s).accLen = 0#Config.lenW := rfl
@[simp] theorem dropContent_accOvf (s : State) : (dropContent s).accOvf = false := rfl
@[simp] theorem dropContent_frmBuf (s : State) : (dropContent s).frmBuf = s.frmBuf := rfl
@[simp] theorem dropContent_frmLen (s : State) : (dropContent s).frmLen = s.frmLen := rfl
@[simp] theorem dropContent_frmOvf (s : State) : (dropContent s).frmOvf = s.frmOvf := rfl
@[simp] theorem dropContent_frmValid (s : State) : (dropContent s).frmValid = s.frmValid := rfl
@[simp] theorem dropContent_ch (s : State) : (dropContent s).ch = s.ch := rfl
@[simp] theorem dropContent_chLoaded (s : State) : (dropContent s).chLoaded = s.chLoaded := rfl
@[simp] theorem dropContent_decDone (s : State) : (dropContent s).decDone = s.decDone := rfl
@[simp] theorem dropContent_decStatus (s : State) : (dropContent s).decStatus = s.decStatus := rfl
@[simp] theorem dropContent_pins (s : State) : (dropContent s).pins = s.pins := rfl
@[simp] theorem dropContent_trace (s : State) : (dropContent s).trace = s.trace := rfl
@[simp] theorem dropContent_freeIndex (s : State) : (dropContent s).freeIndex = s.freeIndex := rfl

/-! ## emitFrame -/

@[simp] theorem emitFrame_esc (s : State) : (emitFrame s).esc = s.esc := rfl
@[simp] theorem emitFrame_acc (s : State) : (emitFrame s).acc = s.acc := rfl
@[simp] theorem emitFrame_accLen (s : State) : (emitFrame s).accLen = s.accLen := rfl
@[simp] theorem emitFrame_accOvf (s : State) : (emitFrame s).accOvf = s.accOvf := rfl
@[simp] theorem emitFrame_frmBuf (s : State) : (emitFrame s).frmBuf = Memory.below s.accLen.toNat s.acc := rfl
@[simp] theorem emitFrame_frmLen (s : State) : (emitFrame s).frmLen = s.accLen := rfl
@[simp] theorem emitFrame_frmOvf (s : State) : (emitFrame s).frmOvf = s.accOvf := rfl
@[simp] theorem emitFrame_frmValid (s : State) : (emitFrame s).frmValid = true := rfl
@[simp] theorem emitFrame_ch (s : State) : (emitFrame s).ch = s.ch := rfl
@[simp] theorem emitFrame_chLoaded (s : State) : (emitFrame s).chLoaded = s.chLoaded := rfl
@[simp] theorem emitFrame_decDone (s : State) : (emitFrame s).decDone = s.decDone := rfl
@[simp] theorem emitFrame_decStatus (s : State) : (emitFrame s).decStatus = s.decStatus := rfl
@[simp] theorem emitFrame_pins (s : State) : (emitFrame s).pins = s.pins := rfl
@[simp] theorem emitFrame_trace (s : State) : (emitFrame s).trace = s.trace := rfl
@[simp] theorem emitFrame_freeIndex (s : State) : (emitFrame s).freeIndex = s.freeIndex := rfl

/-! ## noEmission -/

@[simp] theorem noEmission_esc (s : State) : (noEmission s).esc = s.esc := rfl
@[simp] theorem noEmission_acc (s : State) : (noEmission s).acc = s.acc := rfl
@[simp] theorem noEmission_accLen (s : State) : (noEmission s).accLen = s.accLen := rfl
@[simp] theorem noEmission_accOvf (s : State) : (noEmission s).accOvf = s.accOvf := rfl
@[simp] theorem noEmission_frmBuf (s : State) : (noEmission s).frmBuf = s.frmBuf := rfl
@[simp] theorem noEmission_frmLen (s : State) : (noEmission s).frmLen = s.frmLen := rfl
@[simp] theorem noEmission_frmOvf (s : State) : (noEmission s).frmOvf = s.frmOvf := rfl
@[simp] theorem noEmission_frmValid (s : State) : (noEmission s).frmValid = false := rfl
@[simp] theorem noEmission_ch (s : State) : (noEmission s).ch = s.ch := rfl
@[simp] theorem noEmission_chLoaded (s : State) : (noEmission s).chLoaded = s.chLoaded := rfl
@[simp] theorem noEmission_decDone (s : State) : (noEmission s).decDone = s.decDone := rfl
@[simp] theorem noEmission_decStatus (s : State) : (noEmission s).decStatus = s.decStatus := rfl
@[simp] theorem noEmission_pins (s : State) : (noEmission s).pins = s.pins := rfl
@[simp] theorem noEmission_trace (s : State) : (noEmission s).trace = s.trace := rfl
@[simp] theorem noEmission_freeIndex (s : State) : (noEmission s).freeIndex = s.freeIndex := rfl

/-! ## noDecode -/

@[simp] theorem noDecode_esc (s : State) : (noDecode s).esc = s.esc := rfl
@[simp] theorem noDecode_acc (s : State) : (noDecode s).acc = s.acc := rfl
@[simp] theorem noDecode_accLen (s : State) : (noDecode s).accLen = s.accLen := rfl
@[simp] theorem noDecode_accOvf (s : State) : (noDecode s).accOvf = s.accOvf := rfl
@[simp] theorem noDecode_frmBuf (s : State) : (noDecode s).frmBuf = s.frmBuf := rfl
@[simp] theorem noDecode_frmLen (s : State) : (noDecode s).frmLen = s.frmLen := rfl
@[simp] theorem noDecode_frmOvf (s : State) : (noDecode s).frmOvf = s.frmOvf := rfl
@[simp] theorem noDecode_frmValid (s : State) : (noDecode s).frmValid = s.frmValid := rfl
@[simp] theorem noDecode_ch (s : State) : (noDecode s).ch = s.ch := rfl
@[simp] theorem noDecode_chLoaded (s : State) : (noDecode s).chLoaded = s.chLoaded := rfl
@[simp] theorem noDecode_decDone (s : State) : (noDecode s).decDone = false := rfl
@[simp] theorem noDecode_decStatus (s : State) : (noDecode s).decStatus = s.decStatus := rfl
@[simp] theorem noDecode_pins (s : State) : (noDecode s).pins = s.pins := rfl
@[simp] theorem noDecode_trace (s : State) : (noDecode s).trace = s.trace := rfl
@[simp] theorem noDecode_freeIndex (s : State) : (noDecode s).freeIndex = s.freeIndex := rfl

/-! ## commitChannels -/

@[simp] theorem commitChannels_esc (vs : Vector ChannelValue 16) (s : State) : (commitChannels vs s).esc = s.esc := rfl
@[simp] theorem commitChannels_acc (vs : Vector ChannelValue 16) (s : State) : (commitChannels vs s).acc = s.acc := rfl
@[simp] theorem commitChannels_accLen (vs : Vector ChannelValue 16) (s : State) : (commitChannels vs s).accLen = s.accLen := rfl
@[simp] theorem commitChannels_accOvf (vs : Vector ChannelValue 16) (s : State) : (commitChannels vs s).accOvf = s.accOvf := rfl
@[simp] theorem commitChannels_frmBuf (vs : Vector ChannelValue 16) (s : State) : (commitChannels vs s).frmBuf = s.frmBuf := rfl
@[simp] theorem commitChannels_frmLen (vs : Vector ChannelValue 16) (s : State) : (commitChannels vs s).frmLen = s.frmLen := rfl
@[simp] theorem commitChannels_frmOvf (vs : Vector ChannelValue 16) (s : State) : (commitChannels vs s).frmOvf = s.frmOvf := rfl
@[simp] theorem commitChannels_frmValid (vs : Vector ChannelValue 16) (s : State) : (commitChannels vs s).frmValid = s.frmValid := rfl
@[simp] theorem commitChannels_ch (vs : Vector ChannelValue 16) (s : State) : (commitChannels vs s).ch = vs := rfl
@[simp] theorem commitChannels_chLoaded (vs : Vector ChannelValue 16) (s : State) : (commitChannels vs s).chLoaded = true := rfl
@[simp] theorem commitChannels_decDone (vs : Vector ChannelValue 16) (s : State) : (commitChannels vs s).decDone = true := rfl
@[simp] theorem commitChannels_decStatus (vs : Vector ChannelValue 16) (s : State) : (commitChannels vs s).decStatus = 0b00#2 := rfl
@[simp] theorem commitChannels_pins (vs : Vector ChannelValue 16) (s : State) : (commitChannels vs s).pins = s.pins := rfl
@[simp] theorem commitChannels_trace (vs : Vector ChannelValue 16) (s : State) : (commitChannels vs s).trace = s.trace := rfl
@[simp] theorem commitChannels_freeIndex (vs : Vector ChannelValue 16) (s : State) : (commitChannels vs s).freeIndex = s.freeIndex := rfl

/-! ## clearDeframer -/

@[simp] theorem clearDeframer_esc (s : State) : (clearDeframer s).esc = false := rfl
@[simp] theorem clearDeframer_acc (s : State) : (clearDeframer s).acc = [] := rfl
@[simp] theorem clearDeframer_accLen (s : State) : (clearDeframer s).accLen = 0#Config.lenW := rfl
@[simp] theorem clearDeframer_accOvf (s : State) : (clearDeframer s).accOvf = false := rfl
@[simp] theorem clearDeframer_frmBuf (s : State) : (clearDeframer s).frmBuf = s.frmBuf := rfl
@[simp] theorem clearDeframer_frmLen (s : State) : (clearDeframer s).frmLen = s.frmLen := rfl
@[simp] theorem clearDeframer_frmOvf (s : State) : (clearDeframer s).frmOvf = s.frmOvf := rfl
@[simp] theorem clearDeframer_frmValid (s : State) : (clearDeframer s).frmValid = false := rfl
@[simp] theorem clearDeframer_ch (s : State) : (clearDeframer s).ch = s.ch := rfl
@[simp] theorem clearDeframer_chLoaded (s : State) : (clearDeframer s).chLoaded = s.chLoaded := rfl
@[simp] theorem clearDeframer_decDone (s : State) : (clearDeframer s).decDone = s.decDone := rfl
@[simp] theorem clearDeframer_decStatus (s : State) : (clearDeframer s).decStatus = s.decStatus := rfl
@[simp] theorem clearDeframer_pins (s : State) : (clearDeframer s).pins = s.pins := rfl
@[simp] theorem clearDeframer_trace (s : State) : (clearDeframer s).trace = s.trace := rfl
@[simp] theorem clearDeframer_freeIndex (s : State) : (clearDeframer s).freeIndex = s.freeIndex := rfl

/-! ## resetRegisters -/

@[simp] theorem resetRegisters_esc (s : State) : (resetRegisters s).esc = false := rfl
@[simp] theorem resetRegisters_acc (s : State) : (resetRegisters s).acc = [] := rfl
@[simp] theorem resetRegisters_accLen (s : State) : (resetRegisters s).accLen = 0#Config.lenW := rfl
@[simp] theorem resetRegisters_accOvf (s : State) : (resetRegisters s).accOvf = false := rfl
@[simp] theorem resetRegisters_frmBuf (s : State) : (resetRegisters s).frmBuf = [] := rfl
@[simp] theorem resetRegisters_frmLen (s : State) : (resetRegisters s).frmLen = 0#Config.lenW := rfl
@[simp] theorem resetRegisters_frmOvf (s : State) : (resetRegisters s).frmOvf = false := rfl
@[simp] theorem resetRegisters_frmValid (s : State) : (resetRegisters s).frmValid = false := rfl
@[simp] theorem resetRegisters_ch (s : State) : (resetRegisters s).ch = Config.freeChannels s.freeIndex := rfl
@[simp] theorem resetRegisters_chLoaded (s : State) : (resetRegisters s).chLoaded = false := rfl
@[simp] theorem resetRegisters_decDone (s : State) : (resetRegisters s).decDone = false := rfl
@[simp] theorem resetRegisters_decStatus (s : State) : (resetRegisters s).decStatus = 0b00#2 := rfl
@[simp] theorem resetRegisters_pins (s : State) : (resetRegisters s).pins = s.pins := rfl
@[simp] theorem resetRegisters_trace (s : State) : (resetRegisters s).trace = s.trace := rfl
@[simp] theorem resetRegisters_freeIndex (s : State) : (resetRegisters s).freeIndex = s.freeIndex + 1 := rfl

/-! ## raiseCondition -/

@[simp] theorem raise_frameTooShort_esc (n : Nat) (s : State) : (raiseCondition (.frameTooShort n) s).esc = s.esc := rfl
@[simp] theorem raise_frameTooShort_acc (n : Nat) (s : State) : (raiseCondition (.frameTooShort n) s).acc = s.acc := rfl
@[simp] theorem raise_frameTooShort_accLen (n : Nat) (s : State) : (raiseCondition (.frameTooShort n) s).accLen = s.accLen := rfl
@[simp] theorem raise_frameTooShort_accOvf (n : Nat) (s : State) : (raiseCondition (.frameTooShort n) s).accOvf = s.accOvf := rfl
@[simp] theorem raise_frameTooShort_frmBuf (n : Nat) (s : State) : (raiseCondition (.frameTooShort n) s).frmBuf = s.frmBuf := rfl
@[simp] theorem raise_frameTooShort_frmLen (n : Nat) (s : State) : (raiseCondition (.frameTooShort n) s).frmLen = s.frmLen := rfl
@[simp] theorem raise_frameTooShort_frmOvf (n : Nat) (s : State) : (raiseCondition (.frameTooShort n) s).frmOvf = s.frmOvf := rfl
@[simp] theorem raise_frameTooShort_frmValid (n : Nat) (s : State) : (raiseCondition (.frameTooShort n) s).frmValid = s.frmValid := rfl
@[simp] theorem raise_frameTooShort_ch (n : Nat) (s : State) : (raiseCondition (.frameTooShort n) s).ch = s.ch := rfl
@[simp] theorem raise_frameTooShort_chLoaded (n : Nat) (s : State) : (raiseCondition (.frameTooShort n) s).chLoaded = s.chLoaded := rfl
@[simp] theorem raise_frameTooShort_decDone (n : Nat) (s : State) : (raiseCondition (.frameTooShort n) s).decDone = true := rfl
@[simp] theorem raise_frameTooShort_decStatus (n : Nat) (s : State) : (raiseCondition (.frameTooShort n) s).decStatus = 0b01#2 := rfl
@[simp] theorem raise_frameTooShort_pins (n : Nat) (s : State) : (raiseCondition (.frameTooShort n) s).pins = s.pins := rfl
@[simp] theorem raise_frameTooShort_trace (n : Nat) (s : State) : (raiseCondition (.frameTooShort n) s).trace = s.trace := rfl
@[simp] theorem raise_frameTooShort_freeIndex (n : Nat) (s : State) : (raiseCondition (.frameTooShort n) s).freeIndex = s.freeIndex := rfl

@[simp] theorem raise_invalidFrameType_esc (t : Byte) (s : State) : (raiseCondition (.invalidFrameType t) s).esc = s.esc := rfl
@[simp] theorem raise_invalidFrameType_acc (t : Byte) (s : State) : (raiseCondition (.invalidFrameType t) s).acc = s.acc := rfl
@[simp] theorem raise_invalidFrameType_accLen (t : Byte) (s : State) : (raiseCondition (.invalidFrameType t) s).accLen = s.accLen := rfl
@[simp] theorem raise_invalidFrameType_accOvf (t : Byte) (s : State) : (raiseCondition (.invalidFrameType t) s).accOvf = s.accOvf := rfl
@[simp] theorem raise_invalidFrameType_frmBuf (t : Byte) (s : State) : (raiseCondition (.invalidFrameType t) s).frmBuf = s.frmBuf := rfl
@[simp] theorem raise_invalidFrameType_frmLen (t : Byte) (s : State) : (raiseCondition (.invalidFrameType t) s).frmLen = s.frmLen := rfl
@[simp] theorem raise_invalidFrameType_frmOvf (t : Byte) (s : State) : (raiseCondition (.invalidFrameType t) s).frmOvf = s.frmOvf := rfl
@[simp] theorem raise_invalidFrameType_frmValid (t : Byte) (s : State) : (raiseCondition (.invalidFrameType t) s).frmValid = s.frmValid := rfl
@[simp] theorem raise_invalidFrameType_ch (t : Byte) (s : State) : (raiseCondition (.invalidFrameType t) s).ch = s.ch := rfl
@[simp] theorem raise_invalidFrameType_chLoaded (t : Byte) (s : State) : (raiseCondition (.invalidFrameType t) s).chLoaded = s.chLoaded := rfl
@[simp] theorem raise_invalidFrameType_decDone (t : Byte) (s : State) : (raiseCondition (.invalidFrameType t) s).decDone = true := rfl
@[simp] theorem raise_invalidFrameType_decStatus (t : Byte) (s : State) : (raiseCondition (.invalidFrameType t) s).decStatus = 0b10#2 := rfl
@[simp] theorem raise_invalidFrameType_pins (t : Byte) (s : State) : (raiseCondition (.invalidFrameType t) s).pins = s.pins := rfl
@[simp] theorem raise_invalidFrameType_trace (t : Byte) (s : State) : (raiseCondition (.invalidFrameType t) s).trace = s.trace := rfl
@[simp] theorem raise_invalidFrameType_freeIndex (t : Byte) (s : State) : (raiseCondition (.invalidFrameType t) s).freeIndex = s.freeIndex := rfl

@[simp] theorem raise_accumulatorOverflow_esc (s : State) : (raiseCondition .accumulatorOverflow s).esc = s.esc := rfl
@[simp] theorem raise_accumulatorOverflow_acc (s : State) : (raiseCondition .accumulatorOverflow s).acc = s.acc := rfl
@[simp] theorem raise_accumulatorOverflow_accLen (s : State) : (raiseCondition .accumulatorOverflow s).accLen = s.accLen := rfl
@[simp] theorem raise_accumulatorOverflow_accOvf (s : State) : (raiseCondition .accumulatorOverflow s).accOvf = true := rfl
@[simp] theorem raise_accumulatorOverflow_frmBuf (s : State) : (raiseCondition .accumulatorOverflow s).frmBuf = s.frmBuf := rfl
@[simp] theorem raise_accumulatorOverflow_frmLen (s : State) : (raiseCondition .accumulatorOverflow s).frmLen = s.frmLen := rfl
@[simp] theorem raise_accumulatorOverflow_frmOvf (s : State) : (raiseCondition .accumulatorOverflow s).frmOvf = s.frmOvf := rfl
@[simp] theorem raise_accumulatorOverflow_frmValid (s : State) : (raiseCondition .accumulatorOverflow s).frmValid = s.frmValid := rfl
@[simp] theorem raise_accumulatorOverflow_ch (s : State) : (raiseCondition .accumulatorOverflow s).ch = s.ch := rfl
@[simp] theorem raise_accumulatorOverflow_chLoaded (s : State) : (raiseCondition .accumulatorOverflow s).chLoaded = s.chLoaded := rfl
@[simp] theorem raise_accumulatorOverflow_decDone (s : State) : (raiseCondition .accumulatorOverflow s).decDone = s.decDone := rfl
@[simp] theorem raise_accumulatorOverflow_decStatus (s : State) : (raiseCondition .accumulatorOverflow s).decStatus = s.decStatus := rfl
@[simp] theorem raise_accumulatorOverflow_pins (s : State) : (raiseCondition .accumulatorOverflow s).pins = s.pins := rfl
@[simp] theorem raise_accumulatorOverflow_trace (s : State) : (raiseCondition .accumulatorOverflow s).trace = s.trace := rfl
@[simp] theorem raise_accumulatorOverflow_freeIndex (s : State) : (raiseCondition .accumulatorOverflow s).freeIndex = s.freeIndex := rfl

/-! ## nextInput -/

@[simp] theorem nextInput_esc (s : State) : (nextInput s).esc = s.esc := by
  unfold nextInput; split <;> rfl
@[simp] theorem nextInput_acc (s : State) : (nextInput s).acc = s.acc := by
  unfold nextInput; split <;> rfl
@[simp] theorem nextInput_accLen (s : State) : (nextInput s).accLen = s.accLen := by
  unfold nextInput; split <;> rfl
@[simp] theorem nextInput_accOvf (s : State) : (nextInput s).accOvf = s.accOvf := by
  unfold nextInput; split <;> rfl
@[simp] theorem nextInput_frmBuf (s : State) : (nextInput s).frmBuf = s.frmBuf := by
  unfold nextInput; split <;> rfl
@[simp] theorem nextInput_frmLen (s : State) : (nextInput s).frmLen = s.frmLen := by
  unfold nextInput; split <;> rfl
@[simp] theorem nextInput_frmOvf (s : State) : (nextInput s).frmOvf = s.frmOvf := by
  unfold nextInput; split <;> rfl
@[simp] theorem nextInput_frmValid (s : State) : (nextInput s).frmValid = s.frmValid := by
  unfold nextInput; split <;> rfl
@[simp] theorem nextInput_ch (s : State) : (nextInput s).ch = s.ch := by
  unfold nextInput; split <;> rfl
@[simp] theorem nextInput_chLoaded (s : State) : (nextInput s).chLoaded = s.chLoaded := by
  unfold nextInput; split <;> rfl
@[simp] theorem nextInput_decDone (s : State) : (nextInput s).decDone = s.decDone := by
  unfold nextInput; split <;> rfl
@[simp] theorem nextInput_decStatus (s : State) : (nextInput s).decStatus = s.decStatus := by
  unfold nextInput; split <;> rfl
@[simp] theorem nextInput_freeIndex (s : State) : (nextInput s).freeIndex = s.freeIndex + 1 := by
  unfold nextInput; split <;> rfl

end Sys2Proof.Machine
end

