-- ==== Sys2Proof/Laws/Ops.lean ====
section
/-!
SUPPORT. What each shared operation can do, said once: append, DECODE, the next input, and the frame's reads.
-/

namespace Sys2Proof.Machine

/-- Below `ACC_CAP` the increment of a length is exact in its number. -/
@[simp] theorem lenSucc_toNat {len : LenWord} (h : len.toNat < Config.accCap) : (lenSucc len).toNat = len.toNat + 1 := by
  simp [lenSucc, h]

/-- Below `ACC_CAP` the increment of a length is the `LEN_W`-bit sum. -/
theorem lenSucc_eq_add {len : LenWord} (h : len.toNat < Config.accCap) : lenSucc len = len + 1#Config.lenW := by
  have hcap := Config.accCap_lt
  apply BitVec.eq_of_toNat_eq
  rw [lenSucc_toNat h, BitVec.toNat_add, BitVec.toNat_ofNat, Nat.add_mod_mod, Nat.mod_eq_of_lt (by omega)]

/-- The increment of a length never decreases it and never passes `ACC_CAP`. -/
theorem lenSucc_le {len : LenWord} (h : len.toNat ≤ Config.accCap) :
    len.toNat ≤ (lenSucc len).toNat ∧ (lenSucc len).toNat ≤ Config.accCap := by
  unfold lenSucc
  split
  · simp only [BitVec.toNat_ofNatLT]
    omega
  · exact ⟨le_refl _, h⟩

/-- `append` either stores the byte or marks the overflow (40_deframer.md R84). -/
theorem append_cases (v : Byte) (s : State) :
    (s.accLen.toNat < Config.accCap ∧ append v s = storeByte v s) ∨
    (Config.accCap ≤ s.accLen.toNat ∧ append v s = { s with accOvf := true }) := by
  unfold append
  split
  · exact .inl ⟨‹_›, rfl⟩
  · exact .inr ⟨by omega, rfl⟩

/-- `append` writes only `acc`, `acc_len` and `acc_ovf`. -/
theorem append_frame (v : Byte) (s : State) :
    ∃ acc len ovf, append v s = { s with acc := acc, accLen := len, accOvf := ovf } := by
  rcases append_cases v s with ⟨_, h⟩ | ⟨_, h⟩
  · exact ⟨_, _, _, h⟩
  · exact ⟨_, _, _, h⟩

/-- `DECODE` ends in exactly one of its three outcomes (42_channel_decoder.md R105 to R108). -/
theorem decodeRun_cases (view : List Byte) (adjust : Bool) (s : State) :
    (view.length < 23 ∧ decodeRun view adjust s = { s with decStatus := 0b01#2, decDone := true }) ∨
    (23 ≤ view.length ∧ view.head? = some 0x00#8 ∧
      decodeRun view adjust s = commitChannels (channelValues ((view.drop 1).take 22) adjust) s) ∨
    (23 ≤ view.length ∧ view.head? ≠ some 0x00#8 ∧
      decodeRun view adjust s = { s with decStatus := 0b10#2, decDone := true }) := by
  unfold decodeRun
  split
  · exact .inl ⟨‹_›, rfl⟩
  · rename_i hlen
    cases view with
    | nil => simp at hlen
    | cons type rest =>
      have hlen' : 23 ≤ (type :: rest).length := Nat.le_of_not_lt hlen
      by_cases ht : type = 0x00#8
      · exact .inr (.inl ⟨hlen', by simp [ht], by simp [ht]⟩)
      · exact .inr (.inr ⟨hlen', by simp [ht], by simp [ht, raiseCondition, statusCode]⟩)

/-- `DECODE` writes only the DECODER registers (70_reset_and_hazards.md R148). -/
theorem decodeRun_frame (view : List Byte) (adjust : Bool) (s : State) :
    ∃ ch loaded status, decodeRun view adjust s =
      { s with ch := ch, chLoaded := loaded, decDone := true, decStatus := status } := by
  rcases decodeRun_cases view adjust s with ⟨_, h⟩ | ⟨_, _, h⟩ | ⟨_, _, h⟩
  · exact ⟨_, _, _, h⟩
  · exact ⟨_, _, _, h⟩
  · exact ⟨_, _, _, h⟩

/-- The next input changes only the pins, the trace and the counter of free values. -/
theorem nextInput_frame (s : State) :
    ∃ p tr, nextInput s = { s with pins := p, trace := tr, freeIndex := s.freeIndex + 1 } := by
  unfold nextInput
  split
  · exact ⟨idlePins s.freeIndex, s.trace, rfl⟩
  · exact ⟨_, _, rfl⟩

/-- Bit `8k+j` of a little-endian number is bit `j` of byte `k` (20_memory.md R48). -/
theorem littleEndian_testBit (p : List Byte) (k j : Nat) (hj : j < 8) :
    (littleEndian p).testBit (8 * k + j) = (p.getD k 0#8).getLsbD j := by
  induction p generalizing k with
  | nil => simp [littleEndian]
  | cons b p ih =>
    have hb := b.isLt
    simp only [littleEndian]
    rw [show (256 : Nat) = 2 ^ 8 by norm_num, Nat.add_comm, Nat.testBit_two_pow_mul_add _ hb]
    cases k with
    | zero => rw [if_pos (by omega), Nat.mul_zero, Nat.zero_add, BitVec.testBit_toNat, List.getD_cons_zero]
    | succ k => rw [if_neg (by omega), show 8 * (k + 1) + j - 8 = 8 * k + j by omega, List.getD_cons_succ, ih]

/-- Where the frame buffer has a value, that is what the ROUTER and the DECODER see. -/
theorem frmByte_of_read {s : State} {k : Nat} {b : Byte} (h : Memory.read s.frmBuf k = some b) : frmByte s k = b := by
  simp [frmByte, h]

@[simp] theorem length_frameBytes (s : State) : (frameBytes s).length = s.frmLen.toNat := by simp [frameBytes]

@[simp] theorem length_frameView (s : State) : (frameView s).length = s.frmLen.toNat - 1 := by simp [frameView]

@[simp] theorem channelValues_get (payload : List Byte) (adjust : Bool) (i : Nat) (h : i < 16) :
    (channelValues payload adjust)[i] = channelValue adjust (rawChannel (streamOf payload) i) := by
  simp [channelValues]

/-- `ACC_CAP` is at least 24 (00_scope.md R12). -/
theorem accCap_ge : 24 ≤ Config.accCap := Nat.le_add_left 24 Config.accCapExtra

end Sys2Proof.Machine
end

