-- ==== Sys2Proof/Laws/Cycle.lean ====
section
/-!
SUPPORT. What the decoder, the two stages and a step can do, said once: every later proof about a step starts from these.
-/

namespace Sys2Proof.Machine

/-- The four byte classes (30_encoding.md R60). -/
theorem decodeByte_cases (esc : Bool) (d : Byte) :
    (d = 0x7E#8 ∧ decodeByte esc d = .marker) ∨
    (d ≠ 0x7E#8 ∧ d = 0x7D#8 ∧ esc = false ∧ decodeByte esc d = .escape) ∨
    (d ≠ 0x7E#8 ∧ d ≠ 0x7D#8 ∧ esc = false ∧ decodeByte esc d = .data d) ∨
    (d ≠ 0x7E#8 ∧ esc = true ∧ decodeByte esc d = .escaped d) := by
  unfold decodeByte
  by_cases h1 : d = 0x7E#8
  · simp [h1]
  · by_cases h2 : d = 0x7D#8
    · subst h2
      cases esc <;> simp <;> decide
    · cases esc <;> simp [h1, h2]

/-- The input operation of a cycle without reset: CLR, the byte's class, or none (60_exceptions.md R135, 40_deframer.md R82). -/
theorem inputInstr_cases (s : State) (hr : s.pins.rst = false) :
    (s.pins.clr = true ∧ inputInstr s = some .clr) ∨
    (s.pins.clr = false ∧ s.pins.inValid = true ∧ inputInstr s = some (decodeByte s.esc s.pins.inData)) ∨
    (s.pins.clr = false ∧ s.pins.inValid = false ∧ inputInstr s = none) := by
  unfold inputInstr decodePins
  cases s.pins.clr <;> cases s.pins.inValid <;> simp [hr, decode, decodeControl, Except.toOption]

/-- The decode stage answers, and writes only the DECODER registers. -/
theorem decodeStage_next (s : State) : ∃ ch loaded done status,
    decodeStage s = .next { s with ch := ch, chLoaded := loaded, decDone := done, decStatus := status } := by
  unfold decodeStage frameInstr decodeFrame
  split
  · rename_i i hi
    split at hi
    · obtain rfl := Option.some.inj hi
      split
      · obtain ⟨ch, loaded, status, h⟩ := decodeRun_frame (frameView s) s.pins.cfgAdjust s
        simp only [exec, execRoute, h]
        split <;> exact ⟨_, _, _, _, rfl⟩
      · exact ⟨_, _, _, _, rfl⟩
    · cases hi
  · exact ⟨_, _, _, _, rfl⟩

/-- The decode stage either ends in an OK decode, which loads the channels, or leaves them alone (42_channel_decoder.md R115). -/
theorem decodeStage_channels (s : State) : ∃ u, decodeStage s = .next u ∧
    ((u.decDone = true ∧ u.decStatus = 0b00#2 ∧ u.chLoaded = true ∧ s.frmValid = true ∧ 24 ≤ s.frmLen.toNat) ∨
      (¬ (u.decDone = true ∧ u.decStatus = 0b00#2) ∧ u.ch = s.ch ∧ u.chLoaded = s.chLoaded)) := by
  unfold decodeStage frameInstr decodeFrame
  by_cases hv : s.frmValid = true
  · by_cases hc : 2 ≤ s.frmLen.toNat ∧ frmByte s 1 = Config.controlType
    · simp only [hv, hc, and_self, if_true, exec, execRoute]
      refine ⟨_, rfl, ?_⟩
      rcases decodeRun_cases (frameView s) s.pins.cfgAdjust s with ⟨_, e⟩ | ⟨hl, _, e⟩ | ⟨_, _, e⟩ <;> rw [e]
      · exact .inr ⟨by simp, rfl, rfl⟩
      · rw [length_frameView] at hl
        exact .inl ⟨rfl, rfl, rfl, trivial, by omega⟩
      · exact .inr ⟨by simp, rfl, rfl⟩
    · simp only [hv, hc, if_true, if_false]
      exact ⟨_, rfl, .inr ⟨by simp, rfl, rfl⟩⟩
  · simp only [hv]
    exact ⟨_, rfl, .inr ⟨by simp, rfl, rfl⟩⟩

/-- The deframer stage of a cycle without reset answers, and writes only the DEFRAMER and frame registers. -/
theorem deframerStage_next (s u : State) (hr : s.pins.rst = false) :
    ∃ esc acc accLen accOvf frmBuf frmLen frmOvf frmValid, deframerStage (inputInstr s) u = .next
      { u with esc := esc, acc := acc, accLen := accLen, accOvf := accOvf,
               frmBuf := frmBuf, frmLen := frmLen, frmOvf := frmOvf, frmValid := frmValid } := by
  rcases inputInstr_cases s hr with ⟨_, h⟩ | ⟨_, _, h⟩ | ⟨_, _, h⟩ <;> rw [h]
  · exact ⟨_, _, _, _, _, _, _, _, rfl⟩
  · rcases decodeByte_cases s.esc s.pins.inData with ⟨_, h⟩ | ⟨_, _, _, h⟩ | ⟨_, _, _, h⟩ | ⟨_, _, h⟩ <;> rw [h]
    · simp only [deframerStage, exec, execMarker]
      split <;> exact ⟨_, _, _, _, _, _, _, _, rfl⟩
    · exact ⟨_, _, _, _, _, _, _, _, rfl⟩
    · obtain ⟨acc, len, ovf, e⟩ := append_frame s.pins.inData u
      simp only [deframerStage, exec, execData, e]
      exact ⟨_, _, _, _, _, _, _, _, rfl⟩
    · obtain ⟨acc, len, ovf, e⟩ := append_frame (unescape s.pins.inData) (setEsc false u)
      simp only [deframerStage, exec, execEscaped, e]
      exact ⟨_, _, _, _, _, _, _, _, rfl⟩
  · exact ⟨_, _, _, _, _, _, _, _, rfl⟩

/-- A step with `rst = 1` is the reset and the next input (70_reset_and_hazards.md R142). -/
theorem step_rst (s : State) (hr : s.pins.rst = true) : step s = .next (nextInput (resetRegisters s)) := by
  simp [step, cycle, hr, exec, execRst, andThen]

/-- A step without reset is the decode stage, the deframer stage and the next input (70_reset_and_hazards.md R144). -/
theorem step_stages {s u t : State} (hr : s.pins.rst = false) (hu : decodeStage s = .next u)
    (ht : deframerStage (inputInstr s) u = .next t) : step s = .next (nextInput t) := by
  simp [step, cycle, hr, hu, ht, andThen]

end Sys2Proof.Machine
end

