-- ==== Sys2Proof/Laws/PerInstr.lean ====
section
/-!
SUPPORT. Facts about every operation as syntax, one lemma per constructor: the code the encoder writes meets the "condition"
column of the operation's row of spec/opcode_table.json.
-/

namespace Sys2Proof.Laws.EncodesInRow

/-- The condition of the operation's own row of spec/opcode_table.json, on a code. -/
def rowCondition : Instr → Code → Prop
  | .marker, c => ∃ esc, c = .byte esc 0x7E#8
  | .escape, c => c = .byte false 0x7D#8
  | .data d, c => c = .byte false d ∧ d ≠ 0x7E#8 ∧ d ≠ 0x7D#8
  | .escaped d, c => c = .byte true d ∧ d ≠ 0x7E#8
  | .clr, c => c = .control false true
  | .rst, c => ∃ clr, c = .control true clr
  | .route, c => ∃ len, 2 ≤ len ∧ c = .frame len 0x00#8
  | .skip, c => ∃ len byte1, (len < 2 ∨ byte1 ≠ 0x00#8) ∧ c = .frame len byte1
  | .decodeOk view adjust, c => c = .view view adjust ∧ 23 ≤ view.length ∧ view.head? = some 0x00#8
  | .decodeTooShort view, c => (∃ adjust, c = .view view adjust) ∧ view.length < 23
  | .decodeBadType view, c => (∃ adjust, c = .view view adjust) ∧ 23 ≤ view.length ∧ view.head? ≠ some 0x00#8

/-- A well-formed operation is encoded within its row. -/
def Statement (i : Instr) : Prop := i.wellFormed = true → rowCondition i (encode i)

theorem marker : Statement .marker := fun _ => ⟨false, rfl⟩
theorem escape : Statement .escape := fun _ => rfl
theorem data (d : Byte) : Statement (.data d) := fun h => by
  simpa [Instr.wellFormed, dataByteOk, encode, rowCondition] using h
theorem escaped (d : Byte) : Statement (.escaped d) := fun h => by
  simpa [Instr.wellFormed, escapedByteOk, encode, rowCondition] using h
theorem clr : Statement .clr := fun _ => rfl
theorem rst : Statement .rst := fun _ => ⟨false, rfl⟩
theorem route : Statement .route := fun _ => ⟨2, le_refl 2, rfl⟩
theorem skip : Statement .skip := fun _ => ⟨2, 0x01#8, .inr (by decide), rfl⟩
theorem decodeOk (view : List Byte) (adjust : Bool) : Statement (.decodeOk view adjust) := fun h => by
  simpa [Instr.wellFormed, viewLongEnough, viewIsControl, encode, rowCondition] using h
theorem decodeTooShort (view : List Byte) : Statement (.decodeTooShort view) := fun h => by
  simpa [Instr.wellFormed, viewLongEnough, encode, rowCondition] using h
theorem decodeBadType (view : List Byte) : Statement (.decodeBadType view) := fun h => by
  simpa [Instr.wellFormed, viewLongEnough, viewIsControl, encode, rowCondition] using h

end Sys2Proof.Laws.EncodesInRow
end

