-- ==== Sys2Proof/Laws/Ports.lean ====
section
/-!
SUPPORT. What each output port carries (10_state.md R28): one lemma per port, and the two cases of a byte read.
-/

namespace Sys2Proof.Machine

@[simp] theorem outputPorts_frmValid (s : State) : (outputPorts s).frmValid = s.frmValid := rfl
@[simp] theorem outputPorts_frmLen (s : State) : (outputPorts s).frmLen = s.frmLen := rfl
@[simp] theorem outputPorts_frmOvf (s : State) : (outputPorts s).frmOvf = s.frmOvf := rfl
@[simp] theorem outputPorts_ch (s : State) : (outputPorts s).ch = s.ch := rfl
@[simp] theorem outputPorts_chLoaded (s : State) : (outputPorts s).chLoaded = s.chLoaded := rfl
@[simp] theorem outputPorts_decDone (s : State) : (outputPorts s).decDone = s.decDone := rfl
@[simp] theorem outputPorts_decStatus (s : State) : (outputPorts s).decStatus = s.decStatus := rfl

/-- Each byte of the `frm_buf` port is what a consumer's read of it gives. -/
@[simp] theorem outputPorts_frmBuf_get (s : State) (k : Nat) (h : k < Config.accCap) :
    (outputPorts s).frmBuf[k] = readFrameByte s ⟨k, h⟩ := by
  simp [outputPorts]

/-- A read of the frame port gives the byte's value where it has one, and the free value where it has none (log entry 5). -/
theorem readFrameByte_cases (s : State) (k : Fin Config.accCap) :
    (∃ b, Memory.read s.frmBuf k.val = some b ∧ readFrameByte s k = b) ∨
    (Memory.read s.frmBuf k.val = none ∧ readFrameByte s k = Config.freeFrameByte s.freeIndex k.val) := by
  unfold readFrameByte frmByte
  cases Memory.read s.frmBuf k.val with
  | none => exact .inr ⟨rfl, rfl⟩
  | some b => exact .inl ⟨b, rfl, rfl⟩

/-- A read of the status gives the name whose code stands on `dec_status`, and no other (30_encoding.md R70). -/
theorem readStatus_eq_ok_iff (s : State) (c : DecodeStatus) : readStatus s = .ok c ↔ s.decStatus = statusCode c := by
  have h : ∀ code : BitVec 2, statusName code = some c ↔ code = statusCode c := by cases c <;> decide
  rw [← h, readStatus]
  cases statusName s.decStatus <;> simp

/-- A read of the status stops on the reserved code alone (92_eei_decisions.md D25). -/
theorem readStatus_eq_error_iff (s : State) : readStatus s = .error .reservedStatus ↔ s.decStatus = 0b11#2 := by
  have h : ∀ code : BitVec 2, statusName code = none ↔ code = 0b11#2 := by decide
  rw [← h, readStatus]
  cases statusName s.decStatus <;> simp

end Sys2Proof.Machine
end

