-- ==== Sys2Proof/Tests/Slice0.lean ====
section
/-!
SUPPORT. The model's own tests. Expected results come from spec/95_test_vectors.md (named at each test) or are worked out by
hand from a rule. Then a witness for the hypotheses of every claim that has any.
-/

namespace Sys2Proof.Tests

open Sys2Proof.Machine Sys2Proof.Safety

/-! ## Helpers -/

/-- The cells of a byte list from address 0. -/
def cells (bs : List Byte) : Memory := bs.zipIdx.map fun x => (x.2, x.1)

/-- Any capacity of at least 24 makes `LEN_W` at least 5. -/
theorem pow_lenW_ge : 32 ≤ 2 ^ Config.lenW := by
  have hcap := Config.accCap_lt
  have hge := accCap_ge
  by_contra h
  have : Config.lenW < 5 := (Nat.pow_lt_pow_iff_right (by norm_num : 1 < 2)).mp (by simpa using h)
  have : 2 ^ Config.lenW ≤ 2 ^ 4 := Nat.pow_le_pow_right (by norm_num) (by omega)
  omega

/-- A length of less than 32 as a length register holds it, whatever `ACC_CAP` is. -/
def len (n : Nat) : LenWord := if h : n < 32 then BitVec.ofNatLT n (h.trans_le pow_lenW_ge) else 0#Config.lenW

@[simp] theorem len_toNat {n : Nat} (h : n < 32) : (len n).toNat = n := by simp [len, h]

/-- The capacity as a length register holds it. -/
def fullLen : LenWord := BitVec.ofNatLT Config.accCap Config.accCap_lt

/-- A DEFRAMER that has collected `bs`. -/
def collecting (esc : Bool) (bs : List Byte) : State :=
  { State.reset with esc := esc, acc := cells bs, accLen := len bs.length }

/-- A CORE with `bs` just emitted and the status code 01 and channels of an earlier decode. -/
def registered (bs : List Byte) (ovf : Bool) : State :=
  { State.reset with
    frmBuf := cells bs, frmLen := len bs.length, frmOvf := ovf, frmValid := true,
    ch := Vector.replicate 16 7#12, chLoaded := true, decStatus := 0b01#2 }

/-- One byte on the pins. -/
def bytePins (d : Byte) : Pins := { rst := false, clr := false, inValid := true, inData := d, cfgAdjust := true }

/-- The state a step or an operation answers with. -/
def answer (o : Host.Outcome State Fault Refusal) : Option State :=
  match o with
  | .next s => some s
  | .refused _ => none

/-- A field of the answer. -/
def look {α : Type} (f : State → α) (o : Host.Outcome State Fault Refusal) : Option α := (answer o).map f

/-- The channels as numbers. -/
def channels (s : State) : List Nat := s.ch.toList.map BitVec.toNat

def zeroPayload : List Byte := List.replicate 22 0x00#8
def centerPayload : List Byte :=
  [0xE0#8, 0x03#8, 0x1F#8, 0xF8#8, 0xC0#8, 0x07#8, 0x3E#8, 0xF0#8, 0x81#8, 0x0F#8, 0x7C#8] ++
  [0xE0#8, 0x03#8, 0x1F#8, 0xF8#8, 0xC0#8, 0x07#8, 0x3E#8, 0xF0#8, 0x81#8, 0x0F#8, 0x7C#8]
def seqPayload : List Byte := (List.range 22).map fun k => BitVec.ofNat 8 (k + 1)
def mixedPayload : List Byte :=
  [0x00#8, 0x08#8, 0x80#8, 0x00#8, 0x0E#8, 0x80#8, 0x00#8, 0x56#8, 0x7C#8, 0x0F#8, 0x7C#8] ++
  [0xE1#8, 0x03#8, 0xE0#8, 0xC4#8, 0xFD#8, 0xFF#8, 0x7F#8, 0xF4#8, 0x71#8, 0x17#8, 0xFA#8]

/-! ## Well-formedness: each check refuses an ill-formed term -/

theorem test_data_marker_ill_formed : (Instr.data 0x7E#8).wellFormed = false := by decide
theorem test_data_escape_ill_formed : (Instr.data 0x7D#8).wellFormed = false := by decide
theorem test_escaped_marker_ill_formed : (Instr.escaped 0x7E#8).wellFormed = false := by decide
theorem test_escaped_escape_well_formed : (Instr.escaped 0x7D#8).wellFormed = true := by decide
theorem test_ok_short_ill_formed : (Instr.decodeOk (List.replicate 22 0x00#8) true).wellFormed = false := by decide
theorem test_ok_other_type_ill_formed : (Instr.decodeOk (List.replicate 23 0x05#8) true).wellFormed = false := by decide
theorem test_short_long_ill_formed : (Instr.decodeTooShort (List.replicate 23 0x00#8)).wellFormed = false := by decide
theorem test_bad_control_ill_formed : (Instr.decodeBadType (List.replicate 23 0x00#8)).wellFormed = false := by decide
theorem test_bad_short_ill_formed : (Instr.decodeBadType (List.replicate 22 0x05#8)).wellFormed = false := by decide

/-! ## Decoding: words written out from the spec's encodings (30_encoding.md R60, R61; opcode_table.json) -/

theorem test_decode_marker : decodeTableWord 8 0b01111110 = some .marker := by decide
theorem test_decode_escape : decodeTableWord 8 0b01111101 = some .escape := by decide
theorem test_decode_data : decodeTableWord 8 0b00100000 = some (.data 0x20#8) := by decide
/-- The marker is tested first, with an escape pending too (V-B3). -/
theorem test_decode_marker_after_escape : decode (.byte true 0b01111110#8) = .ok .marker := by decide
/-- A second escape character is an ESCAPED byte (V-B7). -/
theorem test_decode_escape_after_escape : decode (.byte true 0b01111101#8) = .ok (.escaped 0x7D#8) := by decide
/-- Bit 8 of the model's word is the escape flag (log entry 10). -/
theorem test_decode_escaped : decodeTableWord 16 0b101011110 = some (.escaped 0x5E#8) := by decide
theorem test_decode_clr : decode (.control false true) = .ok .clr := by decide
theorem test_decode_rst_beats_clr : decode (.control true true) = .ok .rst := by decide
theorem test_decode_no_control : decode (.control false false) = .error .noControlInput := by decide
theorem test_decode_no_byte :
    decodePins false { bytePins 0x41#8 with inValid := false } = .error .noByteOffered := by decide
theorem test_decode_route : decode (.frame 2 0x00#8) = .ok .route := by decide
theorem test_decode_skip_type : decode (.frame 25 0x05#8) = .ok .skip := by decide
theorem test_decode_skip_one_byte : decode (.frame 1 0x00#8) = .ok .skip := by decide
/-- V-E4: the length is checked before the type. -/
theorem test_decode_view_short :
    decode (.view (0x05#8 :: List.replicate 21 0x00#8) true) = .ok (.decodeTooShort (0x05#8 :: List.replicate 21 0x00#8)) := by
  decide
/-- V-E5. -/
theorem test_decode_view_bad : decode (.view (0x01#8 :: zeroPayload) true) = .ok (.decodeBadType (0x01#8 :: zeroPayload)) := by
  decide
/-- V-E7. -/
theorem test_decode_view_ok : decode (.view (0x00#8 :: zeroPayload) false) = .ok (.decodeOk (0x00#8 :: zeroPayload) false) := by
  decide
/-- 30_encoding.md R64: 7E goes out as 7D 5E, 7D as 7D 5D. -/
theorem test_stuff : stuff [0x7E#8, 0x41#8, 0x7D#8] = [0x7D#8, 0x5E#8, 0x41#8, 0x7D#8, 0x5D#8] := by decide

/-! ## The operations -/

/-- V-B2. -/
theorem test_marker_emits :
    look (fun t => (emitted t, mode t)) (exec .marker (collecting false [0x19#8, 0x00#8])) =
      some (some { bytes := [0x19#8, 0x00#8], ovf := false }, .idle) := by decide
/-- V-B3. -/
theorem test_marker_drops_escape :
    look (fun t => (t.esc, t.frmValid)) (exec .marker (collecting true [])) = some (false, false) := by decide
/-- V-B6. -/
theorem test_escape :
    look (fun t => (t.esc, content t, t.accLen.toNat)) (exec .escape (collecting false [0x19#8])) = some (true, [0x19#8], 1) := by
  decide
/-- V-B15. -/
theorem test_data : look content (exec (.data 0x20#8) (collecting false [0x19#8])) = some [0x19#8, 0x20#8] := by decide
/-- 40_deframer.md R84: a byte beyond the capacity is lost and marked. -/
theorem test_data_overflow :
    look (fun t => (t.accLen, t.accOvf)) (exec (.data 0x01#8) { State.reset with accLen := fullLen }) =
      some (fullLen, true) := by
  simp [exec, execData, append, look, answer, fullLen]
/-- V-B7. -/
theorem test_escaped_escape :
    look (fun t => (t.esc, content t)) (exec (.escaped 0x7D#8) (collecting true [0x19#8])) =
      some (false, [0x19#8, 0x5D#8]) := by decide
/-- V-B13. -/
theorem test_escaped_mask : look content (exec (.escaped 0x20#8) (collecting true [])) = some [0x00#8] := by decide
/-- V-C1. -/
theorem test_clr :
    look (fun t => (mode t, t.accLen.toNat, t.accOvf, t.frmValid)) (exec .clr (collecting true [0x19#8, 0x00#8])) =
      some (.idle, 0, false, false) := by decide
/-- V-C4: the frame registered before the clear is still decoded. -/
theorem test_clr_keeps_the_decode :
    look (fun t => (t.ch[15], t.decDone, t.frmValid))
      (step { registered ([0x19#8, 0x00#8] ++ centerPayload ++ [0x5A#8]) false with
        pins := { bytePins 0x41#8 with clr := true } }) = some (1500#12, true, false) := by decide
/-- V-C5. -/
theorem test_rst :
    look (fun t => (t.frmValid, t.frmLen.toNat, t.chLoaded, t.decStatus)) (exec .rst (registered [0x19#8, 0x00#8] true)) =
      some (false, 0, false, 0b00#2) := by decide
/-- V-C6: a frame registered in the reset cycle is not decoded. -/
theorem test_rst_stops_the_decode :
    look (fun t => (t.decDone, t.chLoaded))
      (step { registered ([0x19#8, 0x00#8] ++ zeroPayload) false with pins := { bytePins 0x41#8 with rst := true, clr := true } }) =
      some (false, false) := by decide
/-- V-R11 (`LEN` is not looked at, the CRC is not read; raw 2047 scales to 2159). -/
theorem test_route :
    look channels (exec .route { registered ([0x00#8, 0x00#8] ++ List.replicate 22 0xFF#8 ++ [0x5A#8]) false with
      pins := bytePins 0x00#8 }) = some (List.replicate 16 2159) := by decide
/-- V-R3. -/
theorem test_route_short :
    look (fun t => (t.decStatus, t.decDone, channels t)) (exec .route (registered [0x00#8, 0x00#8] false)) =
      some (0b01#2, true, List.replicate 16 7) := by decide
/-- V-R4. -/
theorem test_skip :
    look (fun t => (t.decDone, t.decStatus, t.frmValid))
      (step { registered [0x05#8, 0x01#8, 0xAA#8, 0xBB#8] false with decDone := true }) = some (false, 0b01#2, false) := by decide
/-- V-R2: a one-byte frame is skipped although the next byte would be 0x00. -/
theorem test_skip_one_byte :
    look (fun t => (t.decDone, t.decStatus)) (step (registered [0x5D#8] false)) = some (false, 0b01#2) := by decide
/-- V-D4. -/
theorem test_decode_ok_raw :
    look channels (exec (.decodeOk (0x00#8 :: seqPayload ++ [0x5A#8]) false) State.reset) =
      some [513, 96, 1040, 770, 112, 528, 642, 88, 1292, 449, 60, 136, 289, 38, 1349, 176] := by decide
/-- V-D5. -/
theorem test_decode_ok_scaled :
    look channels (exec (.decodeOk (0x00#8 :: mixedPayload ++ [0x5A#8]) true) State.reset) =
      some [880, 880, 881, 884, 885, 987, 1499, 1500, 1500, 1520, 2011, 2158, 2159, 1505, 1817, 2130] := by decide
/-- V-E3. -/
theorem test_decode_too_short :
    look (fun t => (t.decStatus, t.decDone, t.chLoaded)) (exec (.decodeTooShort (List.replicate 22 0x00#8)) State.reset) =
      some (0b01#2, true, false) := by decide
/-- V-E6. -/
theorem test_decode_bad_type :
    look (fun t => (t.decStatus, t.decDone, t.chLoaded)) (exec (.decodeBadType (0xFF#8 :: centerPayload ++ [0x5A#8])) State.reset) =
      some (0b10#2, true, false) := by decide
/-- V-D8, for contrast: p[21] = E0 alone is raw 1792 on channel 15. -/
theorem test_lane_fifteen :
    rawChannel (streamOf (List.replicate 21 0x00#8 ++ [0xE0#8])) 15 = 1792#11 ∧
    rawChannel (streamOf (List.replicate 21 0x00#8 ++ [0xE0#8])) 14 = 0#11 := by decide
/-- 95_test_vectors.md 2.9. -/
theorem test_scale : scale 172#11 = 987#12 ∧ scale 1811#11 = 2011#12 ∧ scale 2047#11 = 2159#12 := by decide

/-! ## Placing a word, and the port reads -/

/-- A byte placed after reset is taken by the first step. -/
theorem test_first_step_takes_the_word :
    look (fun t => (content t, t.accLen.toNat)) (step (State.reset.withFetchWord 8 0x19)) = some ([0x19#8], 1) := by decide
theorem test_first_step_takes_an_escaped_byte :
    look (fun t => (t.esc, content t)) (step (State.reset.withFetchWord 16 0x15E)) = some (false, [0x7E#8]) := by decide
/-- 10_state.md R40, K14, K15: without ground the ports carry free values, beyond `frm_len` as well as after reset. -/
theorem test_ports_without_ground (h : 1 < Config.accCap) :
    readFrameByte (registered [0x19#8] false) ⟨1, h⟩ = Config.freeFrameByte 1 1 ∧
    readChannel State.reset 3 = Config.freeChannel 0 3 := ⟨rfl, by simp [readChannel, State.reset, Config.freeChannels]⟩
/-- 30_encoding.md R70, D25: the reserved code is refused. -/
theorem test_reserved_status_refused :
    readStatus { State.reset with decStatus := 0b11#2 } = .error .reservedStatus := by decide

/-! ## Witnesses: states and operands that meet the hypotheses of the claims -/

/-- The invariant holds of a DEFRAMER that has collected a byte behind an escape. -/
theorem witness_inv_collecting : Inv (collecting true [0x19#8]) := by
  have := accCap_ge
  constructor <;> simp [collecting, cells, State.reset]
  all_goals omega

/-- The invariant holds with a 24-byte control frame registered, and nothing is being collected. -/
theorem witness_inv_registered : Inv (registered ([0x19#8, 0x00#8] ++ zeroPayload) false) ∧
    Fresh (registered ([0x19#8, 0x00#8] ++ zeroPayload) false) := by
  have := accCap_ge
  refine ⟨?_, rfl, rfl, rfl⟩
  constructor
  case frmCells => decide
  case channels_le => exact fun _ => by decide
  all_goals simp [registered, State.reset, zeroPayload]
  omega

/-- The same after its decode cycle: Idle, nothing registered. -/
theorem witness_inv_idle :
    Inv { registered ([0x19#8, 0x00#8] ++ zeroPayload) false with frmValid := false } ∧
    Fresh { registered ([0x19#8, 0x00#8] ++ zeroPayload) false with frmValid := false } ∧
    mode { registered ([0x19#8, 0x00#8] ++ zeroPayload) false with frmValid := false } = .idle := by
  obtain ⟨h, hf⟩ := witness_inv_registered
  exact ⟨⟨h.1, h.2, h.3, h.4, h.5, h.6, by simp, by simp, h.9, h.10⟩, hf, by decide⟩

/-- MarkerEmitsAndIdles: an empty accumulator and one of a single byte. -/
theorem witness_marker : (collecting true []).accLen.toNat = 0 ∧ 0 < (collecting true [0x41#8]).accLen.toNat := by decide

/-- DataAppendsByte, EscapedAppendsXored, OverflowedFramesAreCutAndMarked, LengthsFitTheirWidth: room for one last byte, and none. -/
theorem witness_room : ∃ s t : State, s.accLen.toNat + 1 = Config.accCap ∧ s.accLen.toNat < Config.accCap ∧
    Config.accCap ≤ t.accLen.toNat ∧ t.accLen.toNat = Config.accCap := by
  have hcap := Config.accCap_lt
  refine ⟨{ State.reset with accLen := BitVec.ofNatLT (Config.accCapExtra + 23) (by simp only [Config.accCap] at hcap; omega) },
    { State.reset with accLen := fullLen }, ?_⟩
  simp [fullLen, Config.accCap]

/-- ClrClearsOnlyTheDeframer, RstResetsEveryRegister, ControlPinsBeatAnOfferedByte,
StepRunsTheDecodedOperations: the pins. -/
theorem witness_control_pins : ∃ s t : State, s.pins.rst = false ∧ s.pins.clr = true ∧ s.pins.inValid = true ∧
    t.pins.rst = true ∧ t.trace = bytePins 0x7E#8 :: [] ∧ s.trace = [] :=
  ⟨{ State.reset with pins := { bytePins 0x41#8 with clr := true } },
    { State.reset with pins := { bytePins 0x41#8 with rst := true }, trace := [bytePins 0x7E#8] }, rfl, rfl, rfl, rfl, rfl, rfl⟩

/-- DecodedOperationsAreWellFormed, DecodeInvertsEncode, InputWordsAreReadBackAndTaken: an operation with every bit set. -/
theorem witness_encoding : decode (.byte true 0xFF#8) = .ok (.escaped 0xFF#8) ∧ (Instr.escaped 0xFF#8).wellFormed = true ∧
    encodeWord (.escaped 0xFF#8) = some (16, 511) := by decide

/-- UnusualEscapesAreDefined: no escape pending, room, and the escape character as the second byte. -/
theorem witness_unusual_escape : State.reset.esc = false ∧ (0x7D#8 : Byte) ≠ 0x7E#8 ∧ State.reset.accLen.toNat < Config.accCap :=
  ⟨rfl, by decide, by have := accCap_ge; simp [State.reset]; omega⟩

/-- StuffedFramesRoundTrip and BytesBeforeTheFirstMarkerFormAFrame: frames of one byte and of the full capacity. -/
theorem witness_frames : 1 ≤ [0x7E#8].length ∧ [0x7E#8].length ≤ Config.accCap ∧
    1 ≤ (List.replicate Config.accCap (0x7D#8 : Byte)).length ∧
    (List.replicate Config.accCap (0x7D#8 : Byte)).length ≤ Config.accCap := by
  have := accCap_ge
  simp
  omega

/-- PlainBytesAreTransparent: bytes without marker and escape. -/
theorem witness_plain : 1 ≤ [0x5E#8].length ∧ [0x5E#8].length ≤ Config.accCap ∧ (0x7E#8 : Byte) ∉ [0x5E#8] ∧
    (0x7D#8 : Byte) ∉ [0x5E#8] := by
  have := accCap_ge
  refine ⟨by decide, by simp; omega, by decide, by decide⟩

/-- OverflowedFramesAreCutAndMarked: one byte too many. -/
theorem witness_overflow : Config.accCap < (List.replicate (Config.accCap + 1) (0x7E#8 : Byte)).length := by simp

/-- OverflowKeepsEscapeHandling: a full accumulator with no escape pending, in a state with the invariant. -/
theorem witness_full : ∃ s : State, Inv s ∧ s.accLen.toNat = Config.accCap ∧ s.esc = false := by
  refine ⟨{ State.reset with
    acc := (List.range Config.accCap).map fun k => (k, 0x01#8), accLen := fullLen }, ?_, rfl, rfl⟩
  constructor <;> simp [State.reset, fullLen]
  exact List.map_id _

/-- DesynchronisationIsNotDetected: two frames that together leave one byte of room. -/
theorem witness_two_frames : ∃ A B : List Byte, 1 ≤ A.length ∧ 1 ≤ B.length ∧ A.length + B.length + 1 = Config.accCap :=
  ⟨[0x7E#8], List.replicate (Config.accCapExtra + 22) 0x7D#8, by simp, by simp, by simp [Config.accCap]; omega⟩

/-- RouteDecodesTheView: a registered control frame of two bytes. -/
theorem witness_route : (registered [0x00#8, 0x00#8] false).frmValid = true ∧ 2 ≤ (registered [0x00#8, 0x00#8] false).frmLen.toNat ∧
    frmByte (registered [0x00#8, 0x00#8] false) 1 = 0x00#8 := by decide

/-- SkipLeavesTheDecoderAlone: one byte; and another type. -/
theorem witness_skip : (registered [0x5D#8] false).frmLen.toNat < 2 ∧ frmByte (registered [0x05#8, 0x01#8] false) 1 ≠ 0x00#8 ∧
    (registered [0x5D#8] false).pins.rst = false := by decide

/-- RoutingIgnoresOverflowLenAndCrc: two frames of 25 bytes that differ in overflow mark, `LEN` and CRC. -/
theorem witness_routing : ∀ k, 1 ≤ k → k ≤ 23 →
    frmByte (registered ([0x19#8, 0x00#8] ++ zeroPayload ++ [0x5A#8]) false) k =
      frmByte (registered ([0x00#8, 0x00#8] ++ zeroPayload ++ [0xA5#8]) true) k := by
  intro k h1 h2
  interval_cases k <;> decide

/-- DecodeOkWritesSixteenChannels, ChannelValuesAreInRange: a view of exactly 23 bytes. -/
theorem witness_view_ok : 23 ≤ (0x00#8 :: zeroPayload).length ∧ (0x00#8 :: zeroPayload).head? = some 0x00#8 := by decide

/-- ShortViewsReportTooShort: no byte, and 22 bytes of another type. -/
theorem witness_view_short : ([] : List Byte).length < 23 ∧ (List.replicate 22 (0x05#8 : Byte)).length < 23 := by decide

/-- OtherTypesReportInvalidType: 23 bytes of type 01. -/
theorem witness_view_bad : 23 ≤ (0x01#8 :: zeroPayload).length ∧ (0x01#8 :: zeroPayload).head? ≠ some 0x00#8 := by decide

/-- StreamIsLittleEndian, ShifterFormGivesTheField: a payload, the last bit, a frame of 24 bytes; shifts 5 and 6. -/
theorem witness_payload : zeroPayload.length = 22 ∧ 24 ≤ (registered ([0x19#8, 0x00#8] ++ zeroPayload) false).frmLen.toNat ∧
    11 * (15 : Fin 16).val % 8 = 5 ∧ 11 * (2 : Fin 16).val % 8 = 6 := by decide

/-- ScalingIsMonotonic: the least and the greatest raw values. -/
theorem witness_scaling : (0#11 : RawValue) < 2047#11 := by decide

/-- FieldsFollowTheTable: the last bit of the stream is the last of channel 15. -/
theorem witness_last_bit : (175 : Nat) < 176 ∧ 175 / 11 = 15 ∧ 175 % 11 = 10 := by decide

/-- DecodeReadsOnlyTwentyThreeBytes: views of 23 and of 24 bytes; and two of equal length below 23. -/
theorem witness_views : 23 ≤ (0x00#8 :: zeroPayload).length ∧ 23 ≤ (0x00#8 :: zeroPayload ++ [0x5A#8]).length ∧
    (0x00#8 :: zeroPayload).take 23 = (0x00#8 :: zeroPayload ++ [0x5A#8]).take 23 := by decide

/-- DecodeOutcomeFollowsTheFrame, OtherTypesReportInvalidType: no frame, frames of 1, 2, 23 and 24 bytes. -/
theorem witness_outcomes : State.reset.frmValid = false ∧ State.reset.pins.rst = false ∧
    (registered [0x00#8] false).frmLen.toNat < 2 ∧ (registered [0x00#8, 0x00#8] false).frmLen.toNat = 2 ∧
    (registered (List.replicate 23 0x00#8) false).frmLen.toNat = 23 ∧ (registered (List.replicate 24 0x00#8) false).frmLen.toNat = 24 ∧
    frmByte (registered (List.replicate 23 0x00#8) false) 1 = 0x00#8 ∧
    frmByte (registered (List.replicate 24 0x00#8) false) 1 = 0x00#8 := by decide

/-- ChannelsStayFreeUntilTheFirstDecode, SilentSourceStallsTheDeframer, CycleFramesAreTransactionFrames, DecodingAgreesWithUnboundedSource: input cycles. -/
theorem witness_cycles :
    (∀ p ∈ [idlePins 0, idlePins 1], p.rst = false ∧ p.clr = false ∧ p.inValid = false) ∧
    (∀ p ∈ [idlePins 0, bytePins 0x7E#8], p.rst = false ∧ p.clr = false) := by
  simp [idlePins, bytePins]

/-- FrameHoldsUntilTheNextEmission: a marker that finds a byte, and one that finds none. -/
theorem witness_emission :
    look (fun t => t.frmValid) (step { collecting false [0x41#8] with pins := bytePins 0x7E#8 }) = some true ∧
    look (fun t => t.frmValid) (step { collecting false [] with pins := bytePins 0x7E#8 }) = some false := by decide

/-- DecodeFollowsTheMarkerByTwoEdges: a control frame of exactly 24 bytes, its marker on the pins and a byte after it. -/
theorem witness_latency : ∃ s : State, s.pins.rst = false ∧ s.pins.clr = false ∧ s.pins.inValid = true ∧ s.pins.inData = 0x7E#8 ∧
    24 ≤ s.accLen.toNat ∧ Memory.read s.acc 1 = some 0x00#8 ∧ s.trace = [bytePins 0x19#8] ∧ (bytePins 0x19#8).rst = false :=
  ⟨{ collecting false ([0x19#8, 0x00#8] ++ zeroPayload) with pins := bytePins 0x7E#8, trace := [bytePins 0x19#8] }, by decide⟩

/-- DecodeFollowsTheMarkerByTwoEdges, the short frames: 2 and 23 bytes. -/
theorem witness_latency_short : (collecting false [0x19#8, 0x00#8]).accLen.toNat = 2 ∧
    (collecting false (List.replicate 23 0x00#8)).accLen.toNat = 23 ∧
    Memory.read (collecting false (List.replicate 23 0x00#8)).acc 1 = some 0x00#8 := by decide

/-- EmissionsAndDecodesAreSpaced: an emission; and a cycle that ends in an OK decode, in a state with the invariant. -/
theorem witness_spacing :
    look (fun t => t.frmValid) (step { collecting false [0x41#8] with pins := bytePins 0x7E#8 }) = some true ∧
    Inv (registered ([0x19#8, 0x00#8] ++ zeroPayload) false) ∧
    look (fun t => (t.decDone, t.decStatus)) (step (registered ([0x19#8, 0x00#8] ++ zeroPayload) false)) = some (true, 0b00#2) :=
  ⟨by decide, witness_inv_registered.1, by decide⟩

/-- EmissionsAndDecodesAreSpaced, the last clause: a decode cycle that accepts the first byte of a 24-byte control frame, the 23
others and the marker, and the decode cycle of that frame: exactly 25 bytes. -/
theorem witness_spacing_bytes :
    look (fun t => (t.decDone, t.decStatus))
      (step { registered ([0x19#8, 0x00#8] ++ zeroPayload) false with pins := bytePins 0x19#8 }) = some (true, 0b00#2) ∧
    look (fun v => (v.decDone, v.decStatus))
      (andThen (step { registered ([0x19#8, 0x00#8] ++ zeroPayload) false with pins := bytePins 0x19#8 }) fun t =>
        andThen (clockEnd t ((0x00#8 :: zeroPayload ++ [0x7E#8]).map bytePins)) fun u => clock u (bytePins 0x19#8)) =
      some (true, 0b00#2) ∧
    (acceptedBytes (bytePins 0x19#8 :: (0x00#8 :: zeroPayload ++ [0x7E#8]).map bytePins)).length = 25 := by
  refine ⟨by decide, by decide, by decide⟩

/-- ChannelsStayFreeUntilTheFirstDecode: after a reset, a run without reset whose one decode is too short. -/
theorem witness_no_ok_decode :
    (∀ p ∈ [0x19#8, 0x00#8, 0x7E#8, 0x19#8].map bytePins, p.rst = false) ∧
    (decodeEvents (resetRegisters (collecting true [0x41#8])) ([0x19#8, 0x00#8, 0x7E#8, 0x19#8].map bytePins)).map
      DecodeEvent.status = [0b01#2] := by decide

/-- PortsCarryRegistersAndFreeValues: the last byte of a one-byte frame and the first beyond it, in a state with the invariant. -/
theorem witness_port_bytes : ∃ k l : Fin Config.accCap,
    Inv { collecting true [0x19#8] with frmBuf := cells [0x41#8], frmLen := len 1 } ∧
    k.val + 1 = (len 1).toNat ∧ l.val = (len 1).toNat := by
  have := accCap_ge
  obtain ⟨h1, h2, h3, -, -, -, -, -, h9, h10⟩ := witness_inv_collecting
  exact ⟨⟨0, by omega⟩, ⟨1, by omega⟩,
    ⟨h1, h2, h3, by simp [cells], by simp; omega, fun h => Bool.noConfusion h, fun h => Bool.noConfusion h,
      fun h => Bool.noConfusion h, h9, h10⟩, by simp, by simp⟩

/-- AdjustIsReadOnlyInADecodeCycle: no frame registered. -/
theorem witness_no_frame : (collecting true [0x19#8]).frmValid = false := by decide

/-- StepKeepsMemoryCanonical: both spaces hold bytes. -/
theorem witness_canonical : Memory.wf (cells [0x19#8, 0x00#8]) ∧ Memory.wf (cells [0x41#8]) := by decide

end Sys2Proof.Tests
end

section
/-!
PROOFS. The lengths fit their width: `LEN_W` is the least width for `ACC_CAP`, and an append moves `acc_len` without wrapping.
-/

namespace Sys2Proof.Machine

/-- `DATA` runs the pseudocode of 40_deframer.md R80: an append in a cycle that emits no frame. -/
theorem exec_data (d : Byte) (s : State) : exec (.data d) s = .next (noEmission (append d s)) := rfl

/-- No width below `LEN_W` holds `ACC_CAP` (00_scope.md R10). -/
theorem lenW_le_of_accCap_lt {w : Nat} (h : Config.accCap < 2 ^ w) : Config.lenW ≤ w := by
  have hpos : Config.accCap ≠ 0 := by have := accCap_ge; omega
  exact (Nat.log2_lt hpos).mpr h

/-- With room, an append moves `acc_len` on by one (20_memory.md R44). -/
theorem append_accLen_of_room (v : Byte) {s : State} (h : s.accLen.toNat < Config.accCap) :
    (append v s).accLen = lenSucc s.accLen := by
  rcases append_cases v s with ⟨-, happ⟩ | ⟨hfull, -⟩
  · rw [happ, storeByte_accLen]
  · omega

/-- Without room, an append leaves `acc_len` as it is (40_deframer.md R84). -/
theorem append_accLen_of_full (v : Byte) {s : State} (h : Config.accCap ≤ s.accLen.toNat) :
    (append v s).accLen = s.accLen := by
  rcases append_cases v s with ⟨hroom, -⟩ | ⟨-, happ⟩
  · omega
  · rw [happ]

end Sys2Proof.Machine

namespace Sys2Proof.Proofs

open Sys2Proof.Machine

/-- Settles O51: the width by the least-width property of `log2`, the append by its two cases, room and none. -/
theorem lengthsFitTheirWidth : Obligations.LengthsFitTheirWidth := by
  refine ⟨accCap_ge, Config.accCap_lt, fun w => lenW_le_of_accCap_lt,
    fun s => ⟨s.accLen.isLt, s.frmLen.isLt⟩, fun s d => ⟨_, exec_data d s, fun hroom => ?_, fun hfull => ?_⟩⟩
  · rw [noEmission_accLen, append_accLen_of_room d hroom]
    exact ⟨lenSucc_eq_add hroom, lenSucc_toNat hroom⟩
  · rw [noEmission_accLen, append_accLen_of_full d hfull]

end Sys2Proof.Proofs
end

section
/-!
PROOFS. The invariant holds at reset, every operation keeps it, and so every step and every run do.
-/

namespace Sys2Proof.Machine

/-- The scaled value fits 12 bits, so the narrowing of 42_channel_decoder.md R113 loses nothing. -/
theorem scale_toNat (r : RawValue) : (scale r).toNat = 5 * r.toNat / 8 + 880 := by
  have hr := r.isLt
  have hlt : 5 * r.toNat / 8 + 880 < 2 ^ 12 := by omega
  exact Nat.mod_eq_of_lt hlt

/-- A channel value is at most 2159, scaled or raw (42_channel_decoder.md R118). -/
theorem channelValue_le (adjust : Bool) (r : RawValue) : (channelValue adjust r).toNat ≤ 2159 := by
  have hr := r.isLt
  cases adjust with
  | false =>
    have : (channelValue false r).toNat = r.toNat := BitVec.toNat_setWidth_of_le (b := r) (by decide)
    omega
  | true =>
    have : (channelValue true r).toNat = 5 * r.toNat / 8 + 880 := scale_toNat r
    omega

/-- An append neither reads nor writes `frm_valid`. -/
theorem append_noEmission (v : Byte) (s : State) : append v (noEmission s) = noEmission (append v s) := by
  unfold append
  rw [noEmission_accLen]
  split <;> rfl

end Sys2Proof.Machine

namespace Sys2Proof.Safety

open Sys2Proof.Machine

variable {s : State}

/-! ## The updates -/

theorem inv_resetRegisters (s : State) : Inv (resetRegisters s) where
  accCells := by simp
  accLen_le := by simp
  accOvf_full := by simp
  frmCells := by simp
  frmLen_le := by simp
  frmOvf_full := by simp
  frmLen_pos := by simp
  emitted_idle := by simp
  status_named := by simp
  channels_le := by simp

theorem inv_noEmission (h : Inv s) : Inv (noEmission s) :=
  { h with frmLen_pos := by simp, emitted_idle := by simp }

theorem inv_noDecode (h : Inv s) : Inv (noDecode s) := { h with }

theorem inv_dropContent (h : Inv s) : Inv (dropContent s) :=
  { h with
    accCells := by simp
    accLen_le := by simp
    accOvf_full := by simp
    emitted_idle := fun hv => ⟨(h.emitted_idle hv).1, by simp, rfl⟩ }

/-- Outside an emission cycle the escape flag is free. -/
theorem inv_setEsc (b : Bool) (h : Inv s) (hv : s.frmValid = false) : Inv (setEsc b s) :=
  { h with emitted_idle := by simp [hv] }

/-- Outside an emission cycle a byte may be appended: with room it is the next cell, without it only the mark is set. -/
theorem inv_append (v : Byte) (h : Inv s) (hv : s.frmValid = false) : Inv (append v s) := by
  rcases append_cases v s with ⟨hroom, e⟩ | ⟨hfull, e⟩ <;> rw [e]
  · exact { h with
      accCells := by simpa [hroom] using Memory.keys_write_end v h.accCells
      accLen_le := (lenSucc_le h.accLen_le).2
      accOvf_full := fun ho => absurd (h.accOvf_full ho) hroom.ne
      emitted_idle := by simp [hv] }
  · exact { h with
      accOvf_full := fun _ => le_antisymm h.accLen_le hfull
      emitted_idle := by simp [hv] }

/-- The emission moves the accumulator's part of the invariant to the frame registers and leaves the DEFRAMER Idle
(40_deframer.md R78, R83). -/
theorem inv_emission (h : Inv s) (hlen : 0 < s.accLen.toNat) : Inv (dropContent (emitFrame (setEsc false s))) :=
  { h with
    accCells := by simp
    accLen_le := by simp
    accOvf_full := by simp
    frmCells := by simpa [Memory.below_eq_self h.accCells] using h.accCells
    frmLen_le := h.accLen_le
    frmOvf_full := h.accOvf_full
    frmLen_pos := fun _ => hlen
    emitted_idle := by simp }

/-- A commit of values in range (42_channel_decoder.md R118). -/
theorem inv_commitChannels (vs : Vector ChannelValue 16) (h : Inv s) (hvs : ∀ i : Fin 16, vs[i].toNat ≤ 2159) :
    Inv (commitChannels vs s) :=
  { h with
    status_named := by simp
    channels_le := fun _ => hvs }

/-- DECODE drives one of the three named codes, and what it commits is in range (10_state.md R32, 42_channel_decoder.md
R118). -/
theorem inv_decodeRun (view : List Byte) (adjust : Bool) (h : Inv s) : Inv (decodeRun view adjust s) := by
  rcases decodeRun_cases view adjust s with ⟨-, e⟩ | ⟨-, -, e⟩ | ⟨-, -, e⟩ <;> rw [e]
  · exact { h with status_named := by simp }
  · exact inv_commitChannels _ h fun i => by
      rw [Fin.getElem_fin, channelValues_get]
      exact channelValue_le adjust _
  · exact { h with status_named := by simp }

/-- The invariant does not speak of the pins, the trace and the counter of free values. -/
theorem inv_input (p : Pins) (tr : List Pins) (n : Nat) (h : Inv s) :
    Inv { s with pins := p, trace := tr, freeIndex := n } := { h with }

theorem inv_nextInput (h : Inv s) : Inv (nextInput s) := by
  obtain ⟨p, tr, e⟩ := nextInput_frame s
  rw [e]
  exact inv_input p tr _ h

/-! ## The operations, the step and the runs -/

/-- Every operation answers and keeps the invariant, in every state that satisfies it. -/
theorem exec_inv (i : Instr) (h : Inv s) : ∃ t, exec i s = .next t ∧ Inv t := by
  have hn : Inv (noEmission s) := inv_noEmission h
  cases i with
  | marker =>
    refine ⟨_, rfl, ?_⟩
    split
    · exact inv_emission h ‹_›
    · exact inv_setEsc false hn rfl
  | escape => exact ⟨_, rfl, inv_setEsc true hn rfl⟩
  | data d => exact ⟨_, exec_data d s, append_noEmission d s ▸ inv_append d hn rfl⟩
  | escaped d =>
    refine ⟨_, rfl, ?_⟩
    rw [← append_noEmission]
    exact inv_append _ (inv_setEsc false hn rfl) rfl
  | clr => exact ⟨_, rfl, inv_dropContent (inv_setEsc false hn rfl)⟩
  | rst => exact ⟨_, rfl, inv_resetRegisters s⟩
  | route =>
    refine ⟨_, rfl, ?_⟩
    split
    · exact inv_decodeRun _ _ h
    · exact h
  | skip => exact ⟨_, rfl, inv_noDecode h⟩
  | decodeOk view adjust => exact ⟨_, rfl, inv_decodeRun view adjust h⟩
  | decodeTooShort view => exact ⟨_, rfl, inv_decodeRun view _ h⟩
  | decodeBadType view => exact ⟨_, rfl, inv_decodeRun view _ h⟩

theorem decodeStage_inv (h : Inv s) : ∃ u, decodeStage s = .next u ∧ Inv u := by
  unfold decodeStage
  split
  · exact exec_inv _ h
  · exact ⟨_, rfl, inv_noDecode h⟩

theorem deframerStage_inv (i : Option Instr) (h : Inv s) : ∃ t, deframerStage i s = .next t ∧ Inv t := by
  cases i with
  | some i => exact exec_inv i h
  | none => exact ⟨_, rfl, inv_noEmission h⟩

/-- Every step answers and keeps the invariant, with every input. -/
theorem step_inv (h : Inv s) : ∃ t, step s = .next t ∧ Inv t := by
  cases hr : s.pins.rst with
  | true => exact ⟨_, step_rst s hr, inv_nextInput (inv_resetRegisters s)⟩
  | false =>
    obtain ⟨u, hu, hinv⟩ := decodeStage_inv h
    obtain ⟨t, ht, hinv⟩ := deframerStage_inv (inputInstr s) hinv
    exact ⟨_, step_stages hr hu ht, inv_nextInput hinv⟩

theorem clock_inv (p : Pins) (h : Inv s) : ∃ t, clock s p = .next t ∧ Inv t :=
  step_inv (inv_input p [] s.freeIndex h)

/-- Every run of input cycles answers and keeps the invariant. -/
theorem clockEnd_inv (ps : List Pins) (h : Inv s) : ∃ t, clockEnd s ps = .next t ∧ Inv t := by
  induction ps generalizing s with
  | nil => exact ⟨s, rfl, h⟩
  | cons p ps ih =>
    obtain ⟨t, ht, hinv⟩ := clock_inv p h
    simpa only [clockEnd, ht, andThen] using ih hinv

/-- The state after reset is what RST leaves, with the free channel values number 0 (log entry 3). -/
theorem inv_reset : Inv State.reset := inv_resetRegisters { State.reset with freeIndex := 0 }

end Sys2Proof.Safety

namespace Sys2Proof.Proofs

open Sys2Proof.Machine Sys2Proof.Safety

/-- Settles O47: the state after reset is one that RST leaves. -/
theorem invariantHoldsAtReset : Obligations.InvariantHoldsAtReset := inv_reset

/-- Settles O48: a step is the reset, or the decode stage and the deframer stage, and every operation of a stage keeps the
invariant. -/
theorem stepKeepsTheInvariant : Obligations.StepKeepsTheInvariant := by
  intro s t h hstep
  obtain ⟨t', ht', hinv⟩ := step_inv h
  obtain rfl : t' = t := by simpa [ht'] using hstep
  exact hinv

/-- Settles O49: the invariant holds at reset and along every run, and bounds the lengths. -/
theorem reachableLengthsAreBounded : Obligations.ReachableLengthsAreBounded := by
  intro ps
  obtain ⟨t, ht, h⟩ := clockEnd_inv ps inv_reset
  exact ⟨t, ht, h.accLen_le, h.accOvf_full, h.frmLen_le, h.frmOvf_full, h.frmLen_pos⟩

end Sys2Proof.Proofs
end

section
/-!
PROOFS. What a reset leaves, and what a consumer reads at the output ports.
-/

namespace Sys2Proof.Machine

/-- `RST` runs the pseudocode of 70_reset_and_hazards.md R141. -/
theorem exec_rst (s : State) : exec .rst s = .next (resetRegisters s) := rfl

@[simp] theorem freeChannels_get (n i : Nat) (h : i < 16) : (Config.freeChannels n)[i] = Config.freeChannel n i := by
  simp [Config.freeChannels]

/-- Right after a reset the channel port carries the free values (log entry 3). -/
theorem readChannel_resetRegisters (s : State) (i : Fin 16) :
    readChannel (resetRegisters s) i = Config.freeChannel s.freeIndex i.val :=
  freeChannels_get s.freeIndex i.val i.isLt

/-- An address has a value exactly when it is listed. -/
theorem Memory.isSome_read (m : Memory) (a : Nat) :
    (Memory.read m a).isSome = decide (a ∈ m.map Prod.fst) := by
  induction m with
  | nil => rfl
  | cons c m ih =>
    obtain ⟨k, b⟩ := c
    by_cases hk : k = a
    · simp [Memory.read, hk]
    · simpa [Memory.read, hk, Ne.symm hk] using ih

/-- A space that lists exactly the addresses below `n` has a value exactly there. -/
theorem Memory.isSome_read_of_range {m : Memory} {n : Nat} (h : m.map Prod.fst = List.range n) (a : Nat) :
    (Memory.read m a).isSome = decide (a < n) := by
  rw [Memory.isSome_read, h]
  simp

/-- Every code but the reserved one is the code of a name (30_encoding.md R70). -/
theorem exists_statusCode {code : BitVec 2} (h : code ≠ 0b11#2) : ∃ c, statusCode c = code := by
  have named : ∀ code : BitVec 2, code ≠ 0b11#2 → code = 0b00#2 ∨ code = 0b01#2 ∨ code = 0b10#2 := by decide
  rcases named code h with rfl | rfl | rfl
  · exact ⟨.ok, rfl⟩
  · exact ⟨.frameTooShort, rfl⟩
  · exact ⟨.invalidFrameType, rfl⟩

end Sys2Proof.Machine

namespace Sys2Proof.Proofs

open Sys2Proof.Machine Sys2Proof.Safety

/-- Settles O8: `State.reset` lists the reset values, and the mode is a function of two of them. -/
theorem resetStateHoldsResetValues : Obligations.ResetStateHoldsResetValues := by
  have hmode : mode State.reset = .idle := by simp [mode, State.reset]
  have hlen : (0#Config.lenW).toNat = 0 := BitVec.toNat_zero
  exact ⟨hmode, rfl, hlen, rfl, rfl, hlen, rfl, rfl, rfl, rfl⟩

/-- Settles O9: a reset empties both byte spaces, numbers the channels by the counter and moves the counter on. -/
theorem resetLeavesUnspecifiedValuesFree : Obligations.ResetLeavesUnspecifiedValuesFree :=
  ⟨fun k => ⟨Memory.read_nil k, Memory.read_nil k⟩,
    fun i => freeChannels_get 0 i.val i.isLt,
    fun s => ⟨_, exec_rst s, fun k => ⟨Memory.read_nil k, Memory.read_nil k⟩,
      fun i => freeChannels_get s.freeIndex i.val i.isLt, Nat.lt_succ_self s.freeIndex⟩⟩

/-- Settles O52: every state by the lemma of each port, an invariant one by its lists of cells. -/
theorem portsCarryRegistersAndFreeValues : Obligations.PortsCarryRegistersAndFreeValues := by
  refine ⟨fun s => ⟨rfl, rfl, rfl, rfl, rfl, rfl, rfl, ?_, fun _ => rfl, ?_, ?_, ?_, ?_, ?_⟩, fun s hinv => ?_⟩
  · exact fun k => outputPorts_frmBuf_get s k.val k.isLt
  · exact (readStatus_eq_ok_iff s .ok).mpr
  · exact (readStatus_eq_ok_iff s .frameTooShort).mpr
  · exact (readStatus_eq_ok_iff s .invalidFrameType).mpr
  · exact (readStatus_eq_error_iff s).mpr
  · exact fun i => ⟨_, exec_rst s, readChannel_resetRegisters s i⟩
  · have hfrm := Memory.isSome_read_of_range hinv.frmCells
    refine ⟨Memory.isSome_read_of_range hinv.accCells, hfrm, fun k hk => ?_, fun k hk => ?_, ?_⟩
    · rcases readFrameByte_cases s k with ⟨b, hread, hport⟩ | ⟨hread, -⟩
      · rw [hread, hport]
      · simpa [hread, hk] using hfrm k.val
    · rcases readFrameByte_cases s k with ⟨b, hread, -⟩ | ⟨-, hport⟩
      · simpa [hread, Nat.not_lt.mpr hk] using hfrm k.val
      · exact hport
    · obtain ⟨c, hc⟩ := exists_statusCode hinv.status_named
      exact ⟨c, (readStatus_eq_ok_iff s c).mpr hc.symm, hc⟩

end Sys2Proof.Proofs
end

section
/-!
PROOFS. The channel registers: what a step and a run do to them, and that nothing reads their old values.
-/

namespace Sys2Proof.Machine

/-! ## The channels in a step -/

/-- A step without reset either ends in an OK decode, which loads the channels, or leaves them alone (42_channel_decoder.md
R115). -/
theorem step_channels (s : State) (hr : s.pins.rst = false) : ∃ t, step s = .next t ∧
    ((t.decDone = true ∧ t.decStatus = 0b00#2 ∧ t.chLoaded = true) ∨
      (¬ (t.decDone = true ∧ t.decStatus = 0b00#2) ∧ t.ch = s.ch ∧ t.chLoaded = s.chLoaded)) := by
  obtain ⟨u, hu, hcases⟩ := decodeStage_channels s
  obtain ⟨_, _, _, _, _, _, _, _, ht⟩ := deframerStage_next s u hr
  refine ⟨_, step_stages hr hu ht, ?_⟩
  simp only [nextInput_decDone, nextInput_decStatus, nextInput_ch, nextInput_chLoaded]
  exact hcases.imp (fun ⟨hdone, hok, hloaded, _, _⟩ => ⟨hdone, hok, hloaded⟩) id

/-! ## The old channel values -/

/-- `DECODE` writes the channels without reading them, or keeps them (42_channel_decoder.md R115). -/
theorem decodeRun_old_channels (view : List Byte) (adjust : Bool) (s : State) (vs : Vector ChannelValue 16) :
    decodeRun view adjust { s with ch := vs } = decodeRun view adjust s ∨
    ((decodeRun view adjust s).ch = s.ch ∧
      decodeRun view adjust { s with ch := vs } = { decodeRun view adjust s with ch := vs }) := by
  unfold decodeRun
  split
  · exact .inr ⟨rfl, rfl⟩
  · split
    · exact .inr ⟨rfl, rfl⟩
    · split
      · exact .inl rfl
      · exact .inr ⟨rfl, rfl⟩

/-- The decode stage in full: DECODE on the view of a registered control frame, or `dec_done <- 0` (41_router.md R94, R96). -/
theorem decodeStage_eq (s : State) : decodeStage s = .next
    (if s.frmValid = true ∧ 2 ≤ s.frmLen.toNat ∧ frmByte s 1 = Config.controlType
      then decodeRun (frameView s) s.pins.cfgAdjust s else noDecode s) := by
  unfold decodeStage frameInstr decodeFrame
  by_cases hv : s.frmValid = true
  · by_cases hc : 2 ≤ s.frmLen.toNat ∧ frmByte s 1 = Config.controlType
    · simp [hv, hc, exec, execRoute]
    · simp [hv, hc, exec, execSkip]
  · simp [hv]

/-- The decode stage writes the channels without reading them, or keeps them. -/
theorem decodeStage_old_channels (s : State) (vs : Vector ChannelValue 16) : ∃ u, decodeStage s = .next u ∧
    (decodeStage { s with ch := vs } = .next u ∨
      (u.ch = s.ch ∧ decodeStage { s with ch := vs } = .next { u with ch := vs })) := by
  have hvs : decodeStage { s with ch := vs } = .next
      (if s.frmValid = true ∧ 2 ≤ s.frmLen.toNat ∧ frmByte s 1 = Config.controlType
        then decodeRun (frameView s) s.pins.cfgAdjust { s with ch := vs } else noDecode { s with ch := vs }) :=
    decodeStage_eq { s with ch := vs }
  refine ⟨_, decodeStage_eq s, ?_⟩
  rw [hvs]
  split
  · exact (decodeRun_old_channels (frameView s) s.pins.cfgAdjust s vs).imp (congrArg _) (And.imp_right (congrArg _))
  · exact .inr ⟨rfl, rfl⟩

theorem append_setChannels (v : Byte) (s : State) (vs : Vector ChannelValue 16) :
    append v { s with ch := vs } = { append v s with ch := vs } := by
  unfold append
  split <;> rfl

theorem nextInput_setChannels (s : State) (vs : Vector ChannelValue 16) :
    nextInput { s with ch := vs } = { nextInput s with ch := vs } := by
  unfold nextInput
  cases s.trace <;> rfl

/-- An append leaves the channels alone. -/
theorem append_ch (v : Byte) (s : State) : (append v s).ch = s.ch := by
  obtain ⟨_, _, _, h⟩ := append_frame v s
  rw [h]

/-- A byte operation neither reads nor writes the channels. -/
theorem exec_byte_setChannels (esc : Bool) (d : Byte) (u : State) (vs : Vector ChannelValue 16) :
    ∃ t, exec (decodeByte esc d) u = .next t ∧ t.ch = u.ch ∧
      exec (decodeByte esc d) { u with ch := vs } = .next { t with ch := vs } := by
  rcases decodeByte_cases esc d with ⟨-, h⟩ | ⟨-, -, -, h⟩ | ⟨-, -, -, h⟩ | ⟨-, -, h⟩ <;> rw [h]
  · simp only [exec, execMarker]
    split <;> exact ⟨_, rfl, rfl, rfl⟩
  · exact ⟨_, rfl, rfl, rfl⟩
  · refine ⟨_, exec_data d u, append_ch d u, ?_⟩
    rw [exec_data, append_setChannels]
    rfl
  · refine ⟨_, rfl, append_ch (unescape d) (setEsc false u), ?_⟩
    exact congrArg (fun t : State => Host.Outcome.next (noEmission t)) (append_setChannels (unescape d) (setEsc false u) vs)

/-- The deframer stage of a cycle without reset neither reads nor writes the channels (70_reset_and_hazards.md R148). -/
theorem deframerStage_setChannels (s u : State) (vs : Vector ChannelValue 16) (hr : s.pins.rst = false) :
    ∃ t, deframerStage (inputInstr s) u = .next t ∧ t.ch = u.ch ∧
      deframerStage (inputInstr s) { u with ch := vs } = .next { t with ch := vs } := by
  rcases inputInstr_cases s hr with ⟨-, h⟩ | ⟨-, -, h⟩ | ⟨-, -, h⟩ <;> rw [h]
  · exact ⟨_, rfl, rfl, rfl⟩
  · exact exec_byte_setChannels s.esc s.pins.inData u vs
  · exact ⟨_, rfl, rfl, rfl⟩

end Sys2Proof.Machine

namespace Sys2Proof.Safety

open Sys2Proof.Machine

/-- A decode that is seen as an event reports the status on `dec_status`. -/
theorem decodeEvent_status {t : State} (h : t.decDone = true) : ∃ e, decodeEvent t = some e ∧ e.status = t.decStatus := by
  unfold decodeEvent
  exact ⟨_, if_pos h, rfl⟩

/-- Over input cycles without reset in which no decode is OK, the channels and `ch_loaded` keep their values. -/
theorem clockEnd_channels (s : State) (ps : List Pins) (hr : ∀ p ∈ ps, p.rst = false)
    (hno : ∀ e ∈ decodeEvents s ps, e.status ≠ 0b00#2) :
    ∃ u, clockEnd s ps = .next u ∧ u.ch = s.ch ∧ u.chLoaded = s.chLoaded := by
  induction ps generalizing s with
  | nil => exact ⟨s, rfl, rfl, rfl⟩
  | cons p ps ih =>
    obtain ⟨hp, hps⟩ := List.forall_mem_cons.mp hr
    obtain ⟨t, ht, hcases⟩ := step_channels { s with pins := p, trace := [] } hp
    have hclock : clock s p = .next t := ht
    simp only [decodeEvents, hclock, List.forall_mem_append] at hno
    obtain ⟨hevent, hrest⟩ := hno
    rcases hcases with ⟨hdone, hok, -⟩ | ⟨-, hch, hloaded⟩
    · obtain ⟨e, he, hstatus⟩ := decodeEvent_status hdone
      exact absurd (hstatus.trans hok) (hevent e (by simp [he]))
    · obtain ⟨u, hu, hch', hloaded'⟩ := ih t hps hrest
      exact ⟨u, by simpa only [clockEnd, hclock, andThen] using hu, hch'.trans hch, hloaded'.trans hloaded⟩

end Sys2Proof.Safety

namespace Sys2Proof.Proofs

open Sys2Proof.Machine Sys2Proof.Safety

/-- Settles O55: a run without an OK decode keeps the free values of the reset, and a step's two cases give the rest. -/
theorem channelsStayFreeUntilTheFirstDecode : Obligations.ChannelsStayFreeUntilTheFirstDecode := by
  refine ⟨fun s ps hr => ⟨_, exec_rst s, fun hno => ?_⟩, fun s hr => ?_⟩
  · obtain ⟨u, hu, hch, hloaded⟩ := clockEnd_channels (resetRegisters s) ps hr hno
    refine ⟨u, hu, hloaded, fun i => ?_⟩
    rw [readChannel, hch]
    exact readChannel_resetRegisters s i
  · obtain ⟨t, ht, ⟨hdone, hok, hloaded⟩ | ⟨hno, hch, hloaded⟩⟩ := step_channels s hr
    · exact ⟨t, ht, fun _ _ => hloaded, fun hno => absurd ⟨hdone, hok⟩ hno, fun _ => hloaded⟩
    · exact ⟨t, ht, fun hdone hok => absurd ⟨hdone, hok⟩ hno,
        fun _ => ⟨hloaded, fun i => by rw [readChannel, readChannel, hch]⟩, hloaded.trans⟩

/-- Settles O46: a reset and a commit write the channels without reading them, everything else keeps them. -/
theorem oldChannelValuesInfluenceNothing : Obligations.OldChannelValuesInfluenceNothing := by
  intro s vs
  cases hr : s.pins.rst with
  | true => exact ⟨_, _, step_rst s hr, step_rst { s with ch := vs } hr, rfl, .inl rfl⟩
  | false =>
    obtain ⟨u, hu, hu'⟩ := decodeStage_old_channels s vs
    obtain ⟨t, ht, htch, ht'⟩ := deframerStage_setChannels s u vs hr
    rcases hu' with hu' | ⟨huch, hu'⟩
    · exact ⟨_, _, step_stages hr hu ht, step_stages (s := { s with ch := vs }) hr hu' ht, rfl, .inl rfl⟩
    · refine ⟨_, _, step_stages hr hu ht, step_stages (s := { s with ch := vs }) hr hu' ht', ?_, .inr ⟨?_, ?_⟩⟩
      · rw [nextInput_setChannels]
      · rw [nextInput_ch, htch, huch]
      · rw [nextInput_ch]

end Sys2Proof.Proofs
end

section
/-!
PROOFS. The byte spaces: every operation, and so every step, keeps them in canonical form; and the little-endian reads of
the frame buffer.
-/

namespace Sys2Proof.Machine

variable {s : State}

/-! ## The canonical form -/

/-- Both byte spaces list their bytes by strictly rising address (20_memory.md R41; log entry 4). -/
structure CanonicalSpaces (s : State) : Prop where
  acc : Memory.wf s.acc
  frmBuf : Memory.wf s.frmBuf

theorem canonicalSpaces_resetRegisters (s : State) : CanonicalSpaces (resetRegisters s) :=
  ⟨Memory.wf_nil, Memory.wf_nil⟩

/-- An append is one ordered write into `acc`, or none. -/
theorem canonicalSpaces_append (v : Byte) (h : CanonicalSpaces s) : CanonicalSpaces (append v s) := by
  rcases append_cases v s with ⟨-, e⟩ | ⟨-, e⟩ <;> rw [e]
  · exact ⟨Memory.wf_write h.acc _ v, h.frmBuf⟩
  · exact ⟨h.acc, h.frmBuf⟩

/-- The emission cuts `acc` for `frm_buf` and then empties `acc` (20_memory.md R46). -/
theorem canonicalSpaces_emission (h : CanonicalSpaces s) :
    CanonicalSpaces (dropContent (emitFrame (setEsc false s))) :=
  ⟨Memory.wf_nil, Memory.wf_below h.acc _⟩

/-- DECODE writes neither byte space. -/
theorem canonicalSpaces_decodeRun (view : List Byte) (adjust : Bool) (h : CanonicalSpaces s) :
    CanonicalSpaces (decodeRun view adjust s) := by
  obtain ⟨_, _, _, e⟩ := decodeRun_frame view adjust s
  rw [e]
  exact ⟨h.acc, h.frmBuf⟩

theorem canonicalSpaces_nextInput (h : CanonicalSpaces s) : CanonicalSpaces (nextInput s) :=
  ⟨by simpa using h.acc, by simpa using h.frmBuf⟩

/-- Every operation answers and keeps both byte spaces canonical. -/
theorem exec_canonicalSpaces (i : Instr) (h : CanonicalSpaces s) : ∃ t, exec i s = .next t ∧ CanonicalSpaces t := by
  have hesc (b : Bool) : CanonicalSpaces (setEsc b s) := ⟨h.acc, h.frmBuf⟩
  have hnone {u : State} (hu : CanonicalSpaces u) : CanonicalSpaces (noEmission u) := ⟨hu.acc, hu.frmBuf⟩
  cases i with
  | marker =>
    refine ⟨_, rfl, ?_⟩
    split
    · exact canonicalSpaces_emission h
    · exact hnone (hesc false)
  | escape => exact ⟨_, rfl, hnone (hesc true)⟩
  | data d => exact ⟨_, exec_data d s, hnone (canonicalSpaces_append d h)⟩
  | escaped d => exact ⟨_, rfl, hnone (canonicalSpaces_append (unescape d) (hesc false))⟩
  | clr => exact ⟨_, rfl, Memory.wf_nil, h.frmBuf⟩
  | rst => exact ⟨_, exec_rst s, canonicalSpaces_resetRegisters s⟩
  | route =>
    refine ⟨_, rfl, ?_⟩
    split
    · exact canonicalSpaces_decodeRun _ _ h
    · exact h
  | skip => exact ⟨_, rfl, h.acc, h.frmBuf⟩
  | decodeOk view adjust => exact ⟨_, rfl, canonicalSpaces_decodeRun view adjust h⟩
  | decodeTooShort view => exact ⟨_, rfl, canonicalSpaces_decodeRun view _ h⟩
  | decodeBadType view => exact ⟨_, rfl, canonicalSpaces_decodeRun view _ h⟩

theorem decodeStage_canonicalSpaces (h : CanonicalSpaces s) : ∃ u, decodeStage s = .next u ∧ CanonicalSpaces u := by
  obtain ⟨_, _, _, _, hu⟩ := decodeStage_next s
  exact ⟨_, hu, h.acc, h.frmBuf⟩

theorem deframerStage_canonicalSpaces (i : Option Instr) (h : CanonicalSpaces s) :
    ∃ t, deframerStage i s = .next t ∧ CanonicalSpaces t := by
  cases i with
  | some i => exact exec_canonicalSpaces i h
  | none => exact ⟨_, rfl, h.acc, h.frmBuf⟩

/-- Every step answers and keeps both byte spaces canonical, with every input. -/
theorem step_canonicalSpaces (h : CanonicalSpaces s) : ∃ t, step s = .next t ∧ CanonicalSpaces t := by
  cases hr : s.pins.rst with
  | true => exact ⟨_, step_rst s hr, canonicalSpaces_nextInput (canonicalSpaces_resetRegisters s)⟩
  | false =>
    obtain ⟨u, hu, hcan⟩ := decodeStage_canonicalSpaces h
    obtain ⟨t, ht, hcan⟩ := deframerStage_canonicalSpaces (inputInstr s) hcan
    exact ⟨_, step_stages hr hu ht, canonicalSpaces_nextInput hcan⟩

/-! ## The byte and bit order -/

/-- Within the width, bit `8k+j` of a little-endian word is bit `j` of byte `k` (20_memory.md R48). -/
theorem getLsbD_ofNat_littleEndian (p : List Byte) {w k j : Nat} (hw : 8 * k + j < w) (hj : j < 8) :
    (BitVec.ofNat w (littleEndian p)).getLsbD (8 * k + j) = (p.getD k 0#8).getLsbD j := by
  rw [BitVec.getLsbD_ofNat, littleEndian_testBit p k j hj, decide_eq_true hw, Bool.true_and]

/-- `MemRead(a, n)` in bits (20_memory.md R48). -/
theorem memRead_getLsbD (s : State) (a : Nat) {n k j : Nat} (hk : k < n) (hj : j < 8) :
    (memRead s a n).getLsbD (8 * k + j) = (frmByte s (a + k)).getLsbD j := by
  rw [memRead, getLsbD_ofNat_littleEndian _ (by omega) hj]
  simp [hk]

/-- The channel stream in bits (20_memory.md R49). -/
theorem streamOf_getLsbD (payload : List Byte) {k j : Nat} (hk : k < 22) (hj : j < 8) :
    (streamOf payload).getLsbD (8 * k + j) = (payload.getD k 0#8).getLsbD j :=
  getLsbD_ofNat_littleEndian payload (by omega) hj

/-- The `n` payload bytes after the type byte of the view are `frm_buf[2 .. n+1]` (41_router.md R95). -/
theorem payload_frameView (s : State) {n : Nat} (hlen : n + 2 ≤ s.frmLen.toNat) :
    ((frameView s).drop 1).take n = (List.range n).map fun k => frmByte s (2 + k) := by
  refine List.ext_getElem (by simp; omega) fun k _ _ => ?_
  simp only [frameView, List.getElem_take, List.getElem_drop, List.getElem_map, List.getElem_range]
  rw [show 1 + k + 1 = 2 + k by omega]

end Sys2Proof.Machine

namespace Sys2Proof.Proofs

open Sys2Proof.Machine

/-- Settles O50: a step is the reset, or the decode stage, which writes neither space, and the deframer stage, which writes
in order, cuts or empties. -/
theorem stepKeepsMemoryCanonical : Obligations.StepKeepsMemoryCanonical := by
  intro s t hacc hfrm hstep
  obtain ⟨t', ht', hcan⟩ := step_canonicalSpaces ⟨hacc, hfrm⟩
  obtain rfl : t' = t := by simpa [ht'] using hstep
  exact ⟨hcan.acc, hcan.frmBuf⟩

/-- Settles O31: both words are little-endian numbers of byte lists, and the lists of the last clause are the same. -/
theorem streamIsLittleEndian : Obligations.StreamIsLittleEndian := by
  refine ⟨fun s a n k j => memRead_getLsbD s a, fun payload _ k j => streamOf_getLsbD payload, fun s hlen => ?_⟩
  rw [payload_frameView s hlen]
  rfl

end Sys2Proof.Proofs
end

section
/-!
PROOFS. The decoder against spec/opcode_table.json: it answers an operation exactly on the codes of the operation's row, and
an operation with a code in its row is well-formed.
-/

namespace Sys2Proof

open Sys2Proof.Machine Sys2Proof.Laws.EncodesInRow

/-- The three outcomes of a view: length first, then type (42_channel_decoder.md R106 to R108). -/
theorem decodeView_cases (view : List Byte) (adjust : Bool) :
    (view.length < 23 ∧ decodeView view adjust = .decodeTooShort view) ∨
    (23 ≤ view.length ∧ view.head? = some 0x00#8 ∧ decodeView view adjust = .decodeOk view adjust) ∨
    (23 ≤ view.length ∧ view.head? ≠ some 0x00#8 ∧ decodeView view adjust = .decodeBadType view) := by
  unfold decodeView
  split
  · exact .inl ⟨‹_›, rfl⟩
  · have hlen : 23 ≤ view.length := Nat.le_of_not_lt ‹_›
    split
    · exact .inr (.inl ⟨hlen, ‹_›, rfl⟩)
    · exact .inr (.inr ⟨hlen, ‹_›, rfl⟩)

/-- Whatever a code decodes to, the code meets the condition of that operation's row. -/
theorem rowCondition_of_decode {c : Code} {i : Instr} (h : decode c = .ok i) : rowCondition i c := by
  cases c with
  | byte esc d =>
    obtain rfl : decodeByte esc d = i := Except.ok.inj h
    rcases decodeByte_cases esc d with ⟨rfl, e⟩ | ⟨-, rfl, rfl, e⟩ | ⟨hm, he, rfl, e⟩ | ⟨hm, rfl, e⟩ <;> rw [e]
    · exact ⟨esc, rfl⟩
    · rfl
    · exact ⟨rfl, hm, he⟩
    · exact ⟨rfl, hm⟩
  | control rst clr =>
    cases rst with
    | true =>
      obtain rfl : .rst = i := Except.ok.inj h
      exact ⟨clr, rfl⟩
    | false =>
      cases clr with
      | true =>
        obtain rfl : .clr = i := Except.ok.inj h
        rfl
      | false => cases h
  | frame len byte1 =>
    obtain rfl : decodeFrame len byte1 = i := Except.ok.inj h
    unfold decodeFrame
    split
    · obtain ⟨hlen, rfl⟩ : 2 ≤ len ∧ byte1 = Config.controlType := ‹_›
      exact ⟨len, hlen, rfl⟩
    · rename_i hc
      exact ⟨len, byte1, by rwa [not_and_or, Nat.not_le] at hc, rfl⟩
  | view view adjust =>
    obtain rfl : decodeView view adjust = i := Except.ok.inj h
    rcases decodeView_cases view adjust with ⟨hlen, e⟩ | ⟨hlen, htype, e⟩ | ⟨hlen, htype, e⟩ <;> rw [e]
    · exact ⟨⟨adjust, rfl⟩, hlen⟩
    · exact ⟨rfl, hlen, htype⟩
    · exact ⟨⟨adjust, rfl⟩, hlen, htype⟩

/-- A code that meets the condition of an operation's row decodes to that operation. -/
theorem decode_of_rowCondition {c : Code} {i : Instr} (h : rowCondition i c) : decode c = .ok i := by
  cases i with
  | marker => obtain ⟨esc, rfl⟩ := h; rfl
  | escape => obtain rfl := h; rfl
  | data d =>
    obtain ⟨rfl, hm, he⟩ := h
    simp [decode, decodeByte, hm, he]
  | escaped d =>
    obtain ⟨rfl, hm⟩ := h
    simp [decode, decodeByte, hm]
  | clr => obtain rfl := h; rfl
  | rst => obtain ⟨clr, rfl⟩ := h; rfl
  | route =>
    obtain ⟨len, hlen, rfl⟩ := h
    simp [decode, decodeFrame, hlen]
  | skip =>
    obtain ⟨len, byte1, hc, rfl⟩ := h
    rw [← Nat.not_le, ← not_and_or] at hc
    exact congrArg Except.ok (if_neg hc)
  | decodeOk view adjust =>
    obtain ⟨rfl, hlen, htype⟩ := h
    simp [decode, decodeView, Nat.not_lt.mpr hlen, htype]
  | decodeTooShort view =>
    obtain ⟨⟨adjust, rfl⟩, hlen⟩ := h
    simp [decode, decodeView, hlen]
  | decodeBadType view =>
    obtain ⟨⟨adjust, rfl⟩, hlen, htype⟩ := h
    simp [decode, decodeView, Nat.not_lt.mpr hlen, htype]

/-- An operation with a code in its row is well-formed. -/
theorem wellFormed_of_rowCondition {c : Code} {i : Instr} (h : rowCondition i c) : i.wellFormed = true := by
  cases i with
  | marker | escape | clr | rst | route | skip => rfl
  | data d =>
    obtain ⟨-, hm, he⟩ := h
    simp [Instr.wellFormed, dataByteOk, hm, he]
  | escaped d =>
    obtain ⟨-, hm⟩ := h
    simp [Instr.wellFormed, escapedByteOk, hm]
  | decodeOk view adjust =>
    obtain ⟨-, hlen, htype⟩ := h
    simp [Instr.wellFormed, viewLongEnough, viewIsControl, hlen, htype]
  | decodeTooShort view =>
    obtain ⟨-, hlen⟩ := h
    simp [Instr.wellFormed, viewLongEnough, hlen]
  | decodeBadType view =>
    obtain ⟨-, hlen, htype⟩ := h
    simp [Instr.wellFormed, viewLongEnough, viewIsControl, hlen, htype]

/-- The encoder writes a code of the operation's own row. -/
theorem rowCondition_encode {i : Instr} (h : i.wellFormed = true) : rowCondition i (encode i) := by
  cases i with
  | marker => exact Laws.EncodesInRow.marker h
  | escape => exact Laws.EncodesInRow.escape h
  | data d => exact Laws.EncodesInRow.data d h
  | escaped d => exact Laws.EncodesInRow.escaped d h
  | clr => exact Laws.EncodesInRow.clr h
  | rst => exact Laws.EncodesInRow.rst h
  | route => exact Laws.EncodesInRow.route h
  | skip => exact Laws.EncodesInRow.skip h
  | decodeOk view adjust => exact Laws.EncodesInRow.decodeOk view adjust h
  | decodeTooShort view => exact Laws.EncodesInRow.decodeTooShort view h
  | decodeBadType view => exact Laws.EncodesInRow.decodeBadType view h

theorem wellFormed_of_decode {c : Code} {i : Instr} (h : decode c = .ok i) : i.wellFormed = true :=
  wellFormed_of_rowCondition (rowCondition_of_decode h)

end Sys2Proof

namespace Sys2Proof.Machine

/-- Every operation answers a next state, whatever the state is: none faults and none is refused (60_exceptions.md R131). -/
theorem exec_next (i : Instr) (s : State) : ∃ t, exec i s = .next t := by
  cases i <;> exact ⟨_, rfl⟩

end Sys2Proof.Machine

namespace Sys2Proof.Proofs

open Sys2Proof.Machine

/-- Settles O13: the encoder writes a code of the operation's row, and every code of a row decodes to its operation. -/
theorem decodeInvertsEncode : Obligations.DecodeInvertsEncode :=
  fun _ h => decode_of_rowCondition (rowCondition_encode h)

/-- Settles O12: a decoded code meets the condition of the row, which makes the operation well-formed. -/
theorem decodedOperationsAreWellFormed : Obligations.DecodedOperationsAreWellFormed :=
  fun _ _ => wellFormed_of_decode

/-- Settles O11: a byte code always decodes, to a well-formed operation, and every operation answers. -/
theorem everyByteIsAnOperation : Obligations.EveryByteIsAnOperation :=
  fun esc d => ⟨decodeByte esc d, rfl, wellFormed_of_decode (c := .byte esc d) rfl, exec_next (decodeByte esc d)⟩

/-- Settles O10: the four byte classes, in the order of the table. -/
theorem bytesClassifyByTheTable : Obligations.BytesClassifyByTheTable := by
  intro esc d
  change Except.ok (decodeByte esc d) = _
  rcases decodeByte_cases esc d with ⟨hm, e⟩ | ⟨hm, he, hesc, e⟩ | ⟨hm, he, hesc, e⟩ | ⟨hm, hesc, e⟩ <;> rw [e]
  · rw [if_pos hm]
  · simp [he, hesc]
  · simp [hm, he, hesc]
  · simp [hm, hesc]

end Sys2Proof.Proofs
end

section
/-!
PROOFS. Input words (log entry 10): what the decoder reads from one is what the next step takes from its input.
-/

namespace Sys2Proof

/-- The operation on the pins depends on no other input than the control pins and the byte offered: the escape flag is looked
at only where no control pin is high, and `cfg_adjust` never (60_exceptions.md R135). -/
theorem decodePins_wordPins (esc adjust adjust' : Bool) (v : Nat) :
    decodePins (if wordRst v || wordClr v then esc else wordEsc v) (wordPins v adjust) =
      decodePins (wordEsc v) (wordPins v adjust') := by
  unfold decodePins wordPins
  cases wordRst v <;> cases wordClr v <;> rfl

/-- Bits 9 and 10 of a word below 512 are clear, so it offers its byte (log entry 10). -/
theorem decodePins_wordPins_byte {v : Nat} (h : v < 512) (adjust : Bool) :
    decodePins (wordEsc v) (wordPins v adjust) = .ok (decodeByte (wordEsc v) (BitVec.ofNat 8 v)) := by
  have hclr : wordClr v = false := Nat.testBit_lt_two_pow h
  have hrst : wordRst v = false := Nat.testBit_lt_two_pow (h.trans (by decide))
  simp [decodePins, wordPins, hclr, hrst, decode]

/-- A word below 512 is read as the class of its byte under its escape flag. -/
theorem decodeTableWord_byteWord {nbits v : Nat} (hpos : nbits ≠ 0) (hfit : v < 2 ^ nbits) (h : v < 512) :
    decodeTableWord nbits v = some (decodeByte (wordEsc v) (BitVec.ofNat 8 v)) := by
  have hbits : tableWordBits nbits v = some v := by
    rw [tableWordBits, Nat.mod_eq_of_lt hfit, if_neg (by omega)]
  simp only [decodeTableWord, hbits, decodePins_wordPins_byte h, Except.toOption]

/-- An 8-bit word is a byte that meets no pending escape (log entry 10). -/
theorem decodeTableWord_plain (d : Byte) : decodeTableWord 8 d.toNat = some (decodeByte false d) := by
  have hd := d.isLt
  have hesc : wordEsc d.toNat = false := Nat.testBit_lt_two_pow hd
  rw [decodeTableWord_byteWord (by decide) hd (by omega), hesc, BitVec.ofNat_toNat, BitVec.setWidth_eq]

/-- Bit 8 set above the byte is the pending escape (log entry 10). -/
theorem decodeTableWord_pending (d : Byte) : decodeTableWord 16 (256 + d.toNat) = some (decodeByte true d) := by
  have hd := d.isLt
  have hesc : wordEsc (256 + d.toNat) = true := by
    rw [wordEsc, show 256 = 2 ^ 8 from rfl, Nat.testBit_two_pow_add_eq, Nat.testBit_lt_two_pow hd]
    rfl
  have hbyte : BitVec.ofNat 8 (256 + d.toNat) = d := by
    apply BitVec.eq_of_toNat_eq
    rw [BitVec.toNat_ofNat]
    omega
  rw [decodeTableWord_byteWord (by decide) (by omega) (by omega), hesc, hbyte]

/-- The input word of a well-formed operation is read back as that operation. -/
theorem decodeTableWord_encodeWord {i : Instr} {nbits w : Nat} (hwf : i.wellFormed = true)
    (h : encodeWord i = some (nbits, w)) : decodeTableWord nbits w = some i := by
  cases i with
  | marker => cases h; exact decodeTableWord_plain Config.frameMarker
  | escape => cases h; exact decodeTableWord_plain Config.escapeChar
  | data d =>
    cases h
    rw [decodeTableWord_plain]
    exact congrArg Except.toOption (decode_of_rowCondition (rowCondition_encode hwf))
  | escaped d =>
    cases h
    rw [decodeTableWord_pending]
    exact congrArg Except.toOption (decode_of_rowCondition (rowCondition_encode hwf))
  | clr => cases h; decide
  | rst => cases h; decide
  | route | skip | decodeOk _ _ | decodeTooShort _ | decodeBadType _ => cases h

end Sys2Proof

namespace Sys2Proof.Machine

/-- A word that the decoder reads, placed on the pins, is the input operation of the coming cycle, in every state. -/
theorem inputInstr_withFetchWord {nbits w : Nat} {i : Instr} (h : decodeTableWord nbits w = some i) (s : State) :
    inputInstr (s.withFetchWord nbits w) = some i := by
  cases hbits : tableWordBits nbits w with
  | none => simp [decodeTableWord, hbits] at h
  | some v =>
    simp only [decodeTableWord, hbits] at h
    simp only [inputInstr, State.withFetchWord, placeWord, hbits, ← h]
    exact congrArg Except.toOption (decodePins_wordPins s.esc s.pins.cfgAdjust false v)

end Sys2Proof.Machine

namespace Sys2Proof.Proofs

open Sys2Proof.Machine

/-- Settles O14: a word is read back through its bits, and what is read of a word is what the next step takes. -/
theorem inputWordsAreReadBackAndTaken : Obligations.InputWordsAreReadBackAndTaken := by
  intro i nbits w hwf hw
  have hread : decodeTableWord nbits w = some i := decodeTableWord_encodeWord hwf hw
  exact ⟨hread, inputInstr_withFetchWord hread⟩

/-- Settles O15: the words by their byte's class, the other codes by the condition of their row. -/
theorem specCodesDecode : Obligations.SpecCodesDecode :=
  ⟨decodeTableWord_plain 0x7E#8, decodeTableWord_plain 0x7D#8, decodeTableWord_plain 0x19#8,
    decode_of_rowCondition ⟨rfl, by decide⟩, decode_of_rowCondition rfl, decode_of_rowCondition ⟨true, rfl⟩,
    decode_of_rowCondition ⟨25, by decide, rfl⟩, decode_of_rowCondition ⟨4, 0x01#8, .inr (by decide), rfl⟩,
    decode_of_rowCondition ⟨1, 0x00#8, .inl (by decide), rfl⟩, decode_of_rowCondition ⟨⟨true, rfl⟩, by decide⟩⟩

end Sys2Proof.Proofs
end

section
/-!
PROOFS. The byte operations on the two bytes of an escape sequence (40_deframer.md R78 to R81).
-/

namespace Sys2Proof.Machine

/-- `ESCAPE` runs the pseudocode of 40_deframer.md R79. -/
theorem exec_escape (s : State) : exec .escape s = .next (noEmission (setEsc true s)) := rfl

/-- `ESCAPED` runs the pseudocode of 40_deframer.md R81. -/
theorem exec_escaped (d : Byte) (s : State) :
    exec (.escaped d) s = .next (noEmission (append (unescape d) (setEsc false s))) := rfl

/-- `MARKER` reads neither the escape flag nor `frm_valid`, and writes both (40_deframer.md R78, R83). -/
theorem exec_marker_after_escape (s : State) : exec .marker (noEmission (setEsc true s)) = exec .marker s :=
  rfl

/-- With room, an append stores the byte (40_deframer.md R77). -/
theorem append_of_room (v : Byte) {s : State} (h : s.accLen.toNat < Config.accCap) : append v s = storeByte v s :=
  if_pos h

/-- Going on with the state as it is. -/
@[simp] theorem andThen_next (o : Host.Outcome State Fault Refusal) : andThen o .next = o := by
  cases o <;> rfl

end Sys2Proof.Machine

namespace Sys2Proof.Safety

open Sys2Proof.Machine

/-- With no escape pending, `7D` is `ESCAPE` and leaves nothing but the pending escape for the byte after it. -/
theorem deframeEnd_escape_pair {s : State} (hesc : s.esc = false) (x : Byte) :
    deframeEnd s [0x7D#8, x] = exec (decodeByte true x) (noEmission (setEsc true s)) := by
  have hfirst : deframe s 0x7D#8 = .next (noEmission (setEsc true s)) := by
    rw [deframe, hesc]
    exact exec_escape s
  rw [deframeEnd, hfirst]
  exact andThen_next _

end Sys2Proof.Safety

namespace Sys2Proof.Proofs

open Sys2Proof.Machine Sys2Proof.Safety

/-- Settles O16: after `7D` the marker is a marker, and any other byte is `ESCAPED`, which stores it XORed. -/
theorem unusualEscapesAreDefined : Obligations.UnusualEscapesAreDefined := by
  refine fun s hesc => ⟨?_, fun x hx hroom => ?_⟩
  · rw [deframeEnd_escape_pair hesc, deframe, hesc]
    exact exec_marker_after_escape s
  · have hclass : decodeByte true x = .escaped x := by simp [decodeByte, hx]
    have happ := append_of_room (s := setEsc false (noEmission (setEsc true s))) (unescape x) hroom
    rw [deframeEnd_escape_pair hesc, hclass, exec_escaped, happ]
    exact ⟨_, rfl, rfl, lenSucc_toNat hroom, Memory.read_write_same _ _ _,
      fun k hk => Memory.read_write_other s.acc (unescape x) hk⟩

end Sys2Proof.Proofs
end

section
/-!
PROOFS. The field table (30_encoding.md R69): a channel is the concatenation of the bits of two or three neighbouring
payload bytes.
-/

namespace Sys2Proof.Machine

/-- The bits of one channel in the stream (42_channel_decoder.md R109). -/
theorem rawChannel_getLsbD (S : ChannelStream) (i : Nat) {j : Nat} (hj : j < 11) :
    (rawChannel S i).getLsbD j = S.getLsbD (11 * i + j) := by
  rw [rawChannel, BitVec.getLsbD_extractLsb', decide_eq_true hj, Bool.true_and]

/-- Bits of the stream that lie within byte `k` are bits of that byte (20_memory.md R49). -/
theorem streamOf_extract_byte (p : Fin 22 → Byte) {k : Nat} (hk : k < 22) {o n : Nat} (h : o + n ≤ 8) :
    (streamOf (List.ofFn p)).extractLsb' (8 * k + o) n = (p ⟨k, hk⟩).extractLsb' o n := by
  refine BitVec.eq_of_getLsbD_eq fun j hj => ?_
  rw [BitVec.getLsbD_extractLsb', BitVec.getLsbD_extractLsb', Nat.add_assoc, streamOf_getLsbD _ hk (by omega),
    List.getD_eq_getElem _ _ (by rwa [List.length_ofFn]), List.getElem_ofFn]

/-- Bits of the stream from bit `o` of byte `k` on: the bits in the bytes after it, then the rest of byte `k`. -/
theorem streamOf_extract_append (p : Fin 22 → Byte) {k : Nat} (hk : k < 22) {o m n : Nat} (h : o + n = 8) :
    (streamOf (List.ofFn p)).extractLsb' (8 * k + o) (m + n) =
      (streamOf (List.ofFn p)).extractLsb' (8 * (k + 1) + 0) m ++ (p ⟨k, hk⟩).extractLsb' o n := by
  rw [← streamOf_extract_byte p hk (Nat.le_of_eq h), BitVec.extractLsb'_append_extractLsb'_eq_extractLsb' (by omega)]

/-- A field that starts at bit `o` of byte `k` and ends in the next byte. -/
theorem extract_two_bytes (p : Fin 22 → Byte) (k : Nat) (hk : k + 1 < 22) (o m n : Nat) (hn : o + n = 8) (hm : m ≤ 8) :
    (streamOf (List.ofFn p)).extractLsb' (8 * k + o) (m + n) =
      (p ⟨k + 1, hk⟩).extractLsb' 0 m ++ (p ⟨k, by omega⟩).extractLsb' o n := by
  rw [streamOf_extract_append p (by omega) hn, streamOf_extract_byte p hk (by omega)]

/-- A field that starts at bit `o` of byte `k`, spans the next byte and ends in the one after it. -/
theorem extract_three_bytes (p : Fin 22 → Byte) (k : Nat) (hk : k + 2 < 22) (o m n : Nat) (hn : o + n = 8) (hm : m ≤ 8) :
    (streamOf (List.ofFn p)).extractLsb' (8 * k + o) (m + 8 + n) =
      (p ⟨k + 2, hk⟩).extractLsb' 0 m ++ (p ⟨k + 1, by omega⟩).extractLsb' 0 8 ++ (p ⟨k, by omega⟩).extractLsb' o n := by
  rw [streamOf_extract_append p (by omega) hn, extract_two_bytes p (k + 1) hk 0 m 8 rfl hm]

end Sys2Proof.Machine

namespace Sys2Proof.Proofs

open Sys2Proof.Machine

/-- Settles O33: the tiling bit by bit, and each channel by the byte and the bit it starts at. -/
theorem fieldsFollowTheTable : Obligations.FieldsFollowTheTable := by
  refine ⟨fun S n _ => ?_, fun p => ⟨?_, ?_, ?_, ?_, ?_, ?_, ?_, ?_, ?_, ?_, ?_, ?_, ?_, ?_, ?_, ?_⟩⟩
  · rw [rawChannel_getLsbD S _ (Nat.mod_lt n (by decide)), Nat.div_add_mod]
  · exact extract_two_bytes p 0 (by decide) 0 3 8 rfl (by decide)
  · exact extract_two_bytes p 1 (by decide) 3 6 5 rfl (by decide)
  · exact extract_three_bytes p 2 (by decide) 6 1 2 rfl (by decide)
  · exact extract_two_bytes p 4 (by decide) 1 4 7 rfl (by decide)
  · exact extract_two_bytes p 5 (by decide) 4 7 4 rfl (by decide)
  · exact extract_three_bytes p 6 (by decide) 7 2 1 rfl (by decide)
  · exact extract_two_bytes p 8 (by decide) 2 5 6 rfl (by decide)
  · exact extract_two_bytes p 9 (by decide) 5 8 3 rfl (by decide)
  · exact extract_two_bytes p 11 (by decide) 0 3 8 rfl (by decide)
  · exact extract_two_bytes p 12 (by decide) 3 6 5 rfl (by decide)
  · exact extract_three_bytes p 13 (by decide) 6 1 2 rfl (by decide)
  · exact extract_two_bytes p 15 (by decide) 1 4 7 rfl (by decide)
  · exact extract_two_bytes p 16 (by decide) 4 7 4 rfl (by decide)
  · exact extract_three_bytes p 17 (by decide) 7 2 1 rfl (by decide)
  · exact extract_two_bytes p 19 (by decide) 2 5 6 rfl (by decide)
  · exact extract_two_bytes p 20 (by decide) 5 8 3 rfl (by decide)

end Sys2Proof.Proofs
end

section
/-!
PROOFS. The DEFRAMER against the unbounded source (40_deframer.md R92): what is collected is the reader's accumulator, cut to
`ACC_CAP` and marked when longer. The source's frames on markers and stuffed bytes then give those of the DEFRAMER.
-/

namespace Sys2Proof.Machine

/-! ## The operations behind the bytes -/

/-- `Idle` is the mode of an empty accumulator with no escape pending (10_state.md R21). -/
theorem mode_eq_idle_iff (s : State) : mode s = .idle ↔ s.esc = false ∧ s.accLen.toNat = 0 := by
  unfold mode
  cases s.esc with
  | true => simp
  | false => by_cases hlen : s.accLen.toNat = 0 <;> simp [hlen, Nat.pos_iff_ne_zero]

/-- `MARKER` on an empty accumulator only drops the escape (40_deframer.md R78). -/
theorem exec_marker_of_empty {s : State} (h : s.accLen.toNat = 0) :
    exec .marker s = .next (noEmission (setEsc false s)) :=
  congrArg _ (if_neg (by omega))

/-- `MARKER` emits a non-empty accumulator and empties it (40_deframer.md R78, R83). -/
theorem exec_marker_of_pos {s : State} (h : 0 < s.accLen.toNat) :
    exec .marker s = .next (dropContent (emitFrame (setEsc false s))) :=
  congrArg _ (if_pos h)

/-- Without room, an append only marks the overflow (40_deframer.md R84). -/
theorem append_of_full (v : Byte) {s : State} (h : Config.accCap ≤ s.accLen.toNat) :
    append v s = { s with accOvf := true } :=
  if_neg (by omega)

/-- An append leaves the pending escape alone. -/
@[simp] theorem append_esc (v : Byte) (s : State) : (append v s).esc = s.esc := by
  obtain ⟨_, _, _, h⟩ := append_frame v s
  rw [h]

/-- A space in canonical form reads at each listed address as the byte listed there. -/
theorem Memory.read_of_mem {m : Memory} (h : Memory.wf m) {c : Host.Cell} (hc : c ∈ m) :
    Memory.read m c.1 = some c.2 := by
  induction m with
  | nil => cases hc
  | cons c' m ih =>
    obtain ⟨hlt, hm⟩ : (∀ k ∈ m.map Prod.fst, c'.1 < k) ∧ Memory.wf m := List.pairwise_cons.mp h
    rcases List.mem_cons.mp hc with rfl | hc
    · simp [Memory.read]
    · have hne : c'.1 ≠ c.1 := (hlt c.1 (List.mem_map_of_mem hc)).ne
      simpa [Memory.read, hne] using ih hm hc

/-- A frame buffer that lists exactly the bytes below `frm_len` holds a frame of just these bytes. -/
theorem frameBytes_of_range {s : State} (h : s.frmBuf.map Prod.fst = List.range s.frmLen.toNat) :
    frameBytes s = s.frmBuf.map Prod.snd := by
  rw [frameBytes, ← h, List.map_map]
  exact List.map_congr_left fun c hc => frmByte_of_read (Memory.read_of_mem (Memory.wf_of_range h) hc)

end Sys2Proof.Machine

namespace Sys2Proof.Safety

open Sys2Proof.Machine

variable {s : State} {r : Reader}

/-! ## What the DEFRAMER has collected -/

/-- The frame being collected, as a `MARKER` would emit it (40_deframer.md R78). -/
def collected (s : State) : Frame := { bytes := content s, ovf := s.accOvf }

/-- A frame of the source as the CORE emits it: cut to `ACC_CAP` bytes and marked when longer (40_deframer.md R92). -/
def cutFrame (f : List Byte) : Frame := { bytes := f.take Config.accCap, ovf := decide (Config.accCap < f.length) }

theorem cutFrame_of_le {f : List Byte} (h : f.length ≤ Config.accCap) : cutFrame f = { bytes := f, ovf := false } := by
  simp [cutFrame, List.take_of_length_le h, h]

theorem cutFrame_of_lt {f : List Byte} (h : Config.accCap < f.length) :
    cutFrame f = { bytes := f.take Config.accCap, ovf := true } := by
  simp [cutFrame, h]

theorem length_content (h : Inv s) : (content s).length = s.accLen.toNat := by
  simpa [content] using congrArg List.length h.accCells

/-- An idle DEFRAMER holds nothing: an overflow mark would need a full accumulator (10_state.md R29). -/
theorem fresh_of_idle (h : Inv s) (hidle : mode s = .idle) : Fresh s := by
  obtain ⟨hesc, hlen⟩ := (mode_eq_idle_iff s).mp hidle
  refine ⟨hesc, hlen, Bool.eq_false_iff.mpr fun hovf => ?_⟩
  have hfull := h.accOvf_full hovf
  have hcap := accCap_ge
  omega

/-- With room, an append puts its byte at the end of the content. -/
theorem content_append_of_room (v : Byte) (h : Inv s) (hroom : s.accLen.toNat < Config.accCap) :
    content (append v s) = content s ++ [v] := by
  rw [append_of_room v hroom, content, storeByte_acc, Memory.write_end _ _ _ (by simp [h.accCells]), List.map_append]
  rfl

/-- An append to what is collected is an append to the source's frame: beyond `ACC_CAP` only the mark tells
(40_deframer.md R84, R92). -/
theorem collected_append (v : Byte) {f : List Byte} (h : Inv s) (hf : collected s = cutFrame f) :
    collected (append v s) = cutFrame (f ++ [v]) := by
  obtain ⟨hbytes, hovf⟩ : content s = f.take Config.accCap ∧ s.accOvf = decide (Config.accCap < f.length) :=
    Frame.mk.inj hf
  have hlen : s.accLen.toNat = min Config.accCap f.length := by
    rw [← length_content h, hbytes, List.length_take]
  rcases Nat.lt_or_ge s.accLen.toNat Config.accCap with hroom | hfull
  · have hshort : f.length < Config.accCap := by omega
    have hno : s.accOvf = false := by rw [hovf, decide_eq_false (by omega)]
    rw [collected, content_append_of_room v h hroom, append_of_room v hroom, storeByte_accOvf, hno, hbytes,
      List.take_of_length_le hshort.le, cutFrame_of_le (by rw [List.length_append]; exact hshort)]
  · have hlong : Config.accCap ≤ f.length := by omega
    rw [append_of_full v hfull, cutFrame_of_lt (by rw [List.length_append]; exact Nat.lt_succ_of_le hlong),
      List.take_append_of_le_length hlong, ← hbytes]
    rfl

/-- What a `MARKER` emits is what was collected (40_deframer.md R78, R83). -/
theorem emitted_emission (h : Inv s) (hpos : 0 < s.accLen.toNat) :
    emitted (dropContent (emitFrame (setEsc false s))) = some (collected s) := by
  have hbytes := frameBytes_of_range (inv_emission h hpos).frmCells
  simp only [dropContent_frmBuf, emitFrame_frmBuf, setEsc_acc, setEsc_accLen, Memory.below_eq_self h.accCells] at hbytes
  rw [emitted, hbytes]
  rfl

@[simp] theorem emitted_noEmission (s : State) : emitted (noEmission s) = none := rfl

theorem inv_of_exec {i : Instr} {t : State} (h : Inv s) (e : exec i s = .next t) : Inv t := by
  obtain ⟨t', e', hinv⟩ := exec_inv i h
  obtain rfl : t' = t := by simpa [e'] using e
  exact hinv

/-! ## The refinement relation -/

/-- The DEFRAMER stands where the source's reader stands: the same escape flag, and the reader's accumulator, cut and marked
(40_deframer.md R92). -/
structure Tracks (s : State) (r : Reader) : Prop where
  inv : Inv s
  esc : s.esc = r.esc
  frame : collected s = cutFrame r.acc

/-- An emptied DEFRAMER stands where a new reader stands. -/
theorem tracks_new (h : Inv s) (hfresh : Fresh s) : Tracks s Reader.new := by
  obtain ⟨hesc, hlen, hovf⟩ := hfresh
  have hempty : content s = [] := List.length_eq_zero_iff.mp ((length_content h).trans hlen)
  refine ⟨h, hesc, ?_⟩
  rw [collected, hempty, hovf, Reader.new, cutFrame_of_le (Nat.zero_le _)]

/-- Every invariant state stands where some reader stands: a marked one where a reader with a byte more stands. -/
theorem exists_tracks (h : Inv s) : ∃ r, Tracks s r := by
  have hlen := length_content h
  cases hovf : s.accOvf with
  | false =>
    refine ⟨⟨s.esc, content s⟩, h, rfl, ?_⟩
    rw [collected, hovf, cutFrame_of_le (hlen ▸ h.accLen_le)]
  | true =>
    have hfull : (content s).length = Config.accCap := hlen.trans (h.accOvf_full hovf)
    refine ⟨⟨s.esc, content s ++ [0x00#8]⟩, h, rfl, ?_⟩
    rw [collected, hovf, cutFrame_of_lt (by simp [hfull]), List.take_left' hfull]

/-- The accumulators are empty together, since the cut leaves room for a byte. -/
theorem Tracks.accLen_eq_zero_iff (h : Tracks s r) : s.accLen.toNat = 0 ↔ r.acc = [] := by
  have hbytes : content s = r.acc.take Config.accCap := congrArg Frame.bytes h.frame
  have hcap := accCap_ge
  rw [← length_content h.inv, hbytes, List.length_take, ← List.length_eq_zero_iff]
  omega

/-- Where a new reader stands, the mode is Idle (10_state.md R21). -/
theorem Tracks.mode_eq_idle (h : Tracks s Reader.new) : mode s = .idle :=
  (mode_eq_idle_iff s).mpr ⟨h.esc, h.accLen_eq_zero_iff.mpr rfl⟩

/-! ## The source's reader, byte by byte -/

theorem readerStep_marker (r : Reader) :
    readerStep r 0x7E#8 = (Reader.new, if r.acc = [] then none else some r.acc) := rfl

theorem readerStep_escape (h : r.esc = false) : readerStep r 0x7D#8 = ({ r with esc := true }, none) := by
  simp [readerStep, h]

theorem readerStep_data {d : Byte} (hm : d ≠ 0x7E#8) (he : d ≠ 0x7D#8) (h : r.esc = false) :
    readerStep r d = ({ esc := false, acc := r.acc ++ [d] }, none) := by
  simp [readerStep, hm, he, h]

theorem readerStep_escaped {d : Byte} (hm : d ≠ 0x7E#8) (h : r.esc = true) :
    readerStep r d = ({ esc := false, acc := r.acc ++ [unescape d] }, none) := by
  simp [readerStep, hm, h, unescape]

/-! ## The simulation -/

/-- A `MARKER` emits the reader's frame, cut and marked, and leaves both at their start (40_deframer.md R78). -/
theorem exec_marker_tracks (h : Tracks s r) : ∃ t, exec .marker s = .next t ∧ Tracks t Reader.new ∧
    emitted t = (readerStep r 0x7E#8).2.map cutFrame := by
  rw [readerStep_marker]
  rcases Nat.eq_zero_or_pos s.accLen.toNat with hempty | hpos
  · have e := exec_marker_of_empty hempty
    refine ⟨_, e, tracks_new (inv_of_exec h.inv e) ⟨rfl, hempty, ?_⟩, ?_⟩
    · exact (congrArg Frame.ovf h.frame).trans (by simp [cutFrame, h.accLen_eq_zero_iff.mp hempty])
    · simp [h.accLen_eq_zero_iff.mp hempty]
  · have e := exec_marker_of_pos hpos
    have hne : r.acc ≠ [] := fun hnil => hpos.ne' (h.accLen_eq_zero_iff.mpr hnil)
    refine ⟨_, e, tracks_new (inv_of_exec h.inv e) ⟨rfl, BitVec.toNat_zero, rfl⟩, ?_⟩
    rw [emitted_emission h.inv hpos, h.frame, if_neg hne]
    rfl

/-- One byte keeps the DEFRAMER where the reader stands, and emits what the reader returns (40_deframer.md R92). -/
theorem deframe_tracks (d : Byte) (h : Tracks s r) : ∃ t, deframe s d = .next t ∧
    Tracks t (readerStep r d).1 ∧ emitted t = (readerStep r d).2.map cutFrame := by
  unfold deframe
  rcases decodeByte_cases s.esc d with ⟨rfl, e⟩ | ⟨-, rfl, hesc, e⟩ | ⟨hm, he, hesc, e⟩ | ⟨hm, hesc, e⟩ <;> rw [e]
  · exact exec_marker_tracks h
  · rw [readerStep_escape (h.esc ▸ hesc)]
    exact ⟨_, exec_escape s, ⟨inv_of_exec h.inv (exec_escape s), rfl, h.frame⟩, rfl⟩
  · rw [readerStep_data hm he (h.esc ▸ hesc)]
    have hinv := inv_of_exec h.inv (exec_data d s)
    exact ⟨_, exec_data d s, ⟨hinv, (append_esc d s).trans hesc, collected_append d h.inv h.frame⟩, rfl⟩
  · rw [readerStep_escaped hm (h.esc ▸ hesc)]
    have hquiet : s.frmValid = false := Bool.eq_false_iff.mpr fun hv => by simp [(h.inv.emitted_idle hv).1] at hesc
    have hclear : Inv (setEsc false s) := inv_setEsc false h.inv hquiet
    have hinv := inv_of_exec h.inv (exec_escaped d s)
    exact ⟨_, exec_escaped d s, ⟨hinv, append_esc _ _, collected_append (unescape d) hclear h.frame⟩, rfl⟩

theorem deframeFrames_cons {d : Byte} {t : State} (ht : deframe s d = .next t) (ds : List Byte) :
    deframeFrames s (d :: ds) = (emitted t).toList ++ deframeFrames t ds := by
  simp only [deframeFrames, ht]

/-- On every stream the frames are the reader's, cut and marked (40_deframer.md R92). -/
theorem deframeFrames_of_tracks (ds : List Byte) (h : Tracks s r) :
    deframeFrames s ds = (readerFrames r ds).map cutFrame := by
  induction ds generalizing s r with
  | nil => rfl
  | cons d ds ih =>
    obtain ⟨t, ht, htracks, hemit⟩ := deframe_tracks d h
    rw [deframeFrames_cons ht, readerFrames, List.map_append, ← ih htracks, hemit, Option.toList_map]

end Sys2Proof.Safety

namespace Sys2Proof.Proofs

open Sys2Proof.Machine Sys2Proof.Safety

/-- Settles O24: a fresh DEFRAMER stands where a new reader stands, and the simulation keeps it there. -/
theorem framesAgreeWithUnboundedSource : Obligations.FramesAgreeWithUnboundedSource :=
  fun _ ds hinv hfresh => deframeFrames_of_tracks ds (tracks_new hinv hfresh)

/-- Settles O17: after a `MARKER` every invariant state stands where a new reader stands. -/
theorem markerResynchronises : Obligations.MarkerResynchronises := by
  intro s s' hinv hinv'
  obtain ⟨r, hr⟩ := exists_tracks hinv
  obtain ⟨r', hr'⟩ := exists_tracks hinv'
  obtain ⟨t, ht, htracks, -⟩ := exec_marker_tracks hr
  obtain ⟨t', ht', htracks', -⟩ := exec_marker_tracks hr'
  exact ⟨t, t', ht, ht', htracks.mode_eq_idle, htracks'.mode_eq_idle, fun ds =>
    (deframeFrames_of_tracks ds htracks).trans (deframeFrames_of_tracks ds htracks').symm⟩

end Sys2Proof.Proofs
end

section
/-!
PROOFS. The frames of stuffed streams (40_deframer.md R89 to R93): the source's reader takes the stuffing off, and the
DEFRAMER's frames are the reader's.
-/

namespace Sys2Proof.Safety

open Sys2Proof.Machine

variable {s : State}

/-! ## The source's reader on streams -/

/-- A byte on which the source returns no frame only moves the reader on. -/
theorem readerFrames_cons {r r' : Reader} {d : Byte} (h : readerStep r d = (r', none)) (ds : List Byte) :
    readerFrames r (d :: ds) = readerFrames r' ds := by
  simp [readerFrames, h]

/-- At a marker the source returns a frame that is not empty, and starts again. -/
theorem readerFrames_marker {r : Reader} (h : r.acc ≠ []) (ds : List Byte) :
    readerFrames r (0x7E#8 :: ds) = r.acc :: readerFrames Reader.new ds := by
  simp [readerFrames, readerStep_marker, h]

/-- With no escape pending, a byte without a meaning of its own is collected as it is. -/
theorem readerFrames_data {d : Byte} (hm : d ≠ 0x7E#8) (he : d ≠ 0x7D#8) (acc ds : List Byte) :
    readerFrames ⟨false, acc⟩ (d :: ds) = readerFrames ⟨false, acc ++ [d]⟩ ds :=
  readerFrames_cons (readerStep_data hm he rfl) ds

/-- With no escape pending, `7D x` is collected as `x ^ 0x20` (30_encoding.md R63). -/
theorem readerFrames_escape_pair {x : Byte} (hm : x ≠ 0x7E#8) (acc ds : List Byte) :
    readerFrames ⟨false, acc⟩ (0x7D#8 :: x :: ds) = readerFrames ⟨false, acc ++ [unescape x]⟩ ds := by
  rw [readerFrames_cons (readerStep_escape rfl), readerFrames_cons (readerStep_escaped hm rfl)]

/-- Unescaping undoes the XOR of the stuffing (30_encoding.md R64). -/
theorem unescape_xor_mask (v : Byte) : unescape (v ^^^ Config.escapeMask) = v := by
  simp [unescape]

/-- A stuffed byte is collected as the byte (30_encoding.md R64). -/
theorem readerFrames_stuffByte (v : Byte) (acc ds : List Byte) :
    readerFrames ⟨false, acc⟩ (stuffByte v ++ ds) = readerFrames ⟨false, acc ++ [v]⟩ ds := by
  unfold stuffByte
  split
  · rename_i hv
    have hm : v ^^^ Config.escapeMask ≠ 0x7E#8 := by rcases hv with rfl | rfl <;> decide
    exact (readerFrames_escape_pair hm acc ds).trans (by rw [unescape_xor_mask])
  · rename_i hv
    obtain ⟨hm, he⟩ := not_or.mp hv
    exact readerFrames_data hm he acc ds

/-- Stuffed bytes are collected as the bytes (40_deframer.md R90). -/
theorem readerFrames_stuff (P acc ds : List Byte) :
    readerFrames ⟨false, acc⟩ (stuff P ++ ds) = readerFrames ⟨false, acc ++ P⟩ ds := by
  induction P generalizing acc with
  | nil => rw [List.append_nil]; rfl
  | cons v P ih => rw [stuff, List.append_assoc, readerFrames_stuffByte, ih, List.append_assoc]; rfl

/-- A stuffed payload and a marker give the payload as a frame, and the source starts again. -/
theorem readerFrames_stuff_marker {P : List Byte} (hP : 1 ≤ P.length) (ds : List Byte) :
    readerFrames Reader.new (stuff P ++ 0x7E#8 :: ds) = P :: readerFrames Reader.new ds := by
  have hne : P ≠ [] := List.ne_nil_of_length_pos hP
  rw [Reader.new, readerFrames_stuff, List.nil_append, readerFrames_marker hne]
  rfl

/-- Bytes without marker and escape are their own stuffing (30_encoding.md R64). -/
theorem stuff_of_plain {P : List Byte} (hm : 0x7E#8 ∉ P) (he : 0x7D#8 ∉ P) : stuff P = P := by
  induction P with
  | nil => rfl
  | cons v P ih =>
    obtain ⟨hvm, hm⟩ := List.ne_and_not_mem_of_not_mem_cons hm
    obtain ⟨hve, he⟩ := List.ne_and_not_mem_of_not_mem_cons he
    have hv : ¬ (v = Config.frameMarker ∨ v = Config.escapeChar) := not_or.mpr ⟨Ne.symm hvm, Ne.symm hve⟩
    rw [stuff, stuffByte, if_neg hv, ih hm he]
    rfl

/-- Stuffing goes byte by byte (30_encoding.md R64). -/
theorem stuff_append (A B : List Byte) : stuff (A ++ B) = stuff A ++ stuff B := by
  induction A with
  | nil => rfl
  | cons v A ih => rw [List.cons_append, stuff, ih, stuff, List.append_assoc]

/-! ## The DEFRAMER on streams -/

/-- From an Idle state the frames are the source's, cut and marked (40_deframer.md R92). -/
theorem deframeFrames_of_idle (h : Inv s) (hidle : mode s = .idle) (ds : List Byte) :
    deframeFrames s ds = (readerFrames Reader.new ds).map cutFrame :=
  deframeFrames_of_tracks ds (tracks_new h (fresh_of_idle h hidle))

/-- A stuffed payload fed to an Idle DEFRAMER comes out at the marker, cut and marked if it is too long. -/
theorem deframeFrames_stuff (h : Inv s) (hidle : mode s = .idle) {P : List Byte} (hP : 1 ≤ P.length) :
    deframeFrames s (stuff P ++ [0x7E#8]) = [cutFrame P] := by
  rw [deframeFrames_of_idle h hidle, readerFrames_stuff_marker hP]
  rfl

/-- A marker at the front emits what was collected, if there is anything, and the stream after it is the source's from its
start (40_deframer.md R88). -/
theorem deframeFrames_marker (h : Inv s) (ds : List Byte) :
    deframeFrames s (0x7E#8 :: ds) =
      (if s.accLen.toNat = 0 then [] else [collected s]) ++ (readerFrames Reader.new ds).map cutFrame := by
  obtain ⟨r, hr⟩ := exists_tracks h
  rw [deframeFrames_of_tracks _ hr, readerFrames, readerStep_marker, hr.frame]
  by_cases hempty : r.acc = []
  · simp [hempty, hr.accLen_eq_zero_iff.mpr hempty]
  · simp [hempty, mt hr.accLen_eq_zero_iff.mp hempty]

/-- A stream that ends in a marker leaves the DEFRAMER with nothing: no escape, no byte and no mark (40_deframer.md R78). -/
theorem deframeEnd_marker (h : Inv s) (ds : List Byte) : ∃ t, deframeEnd s (ds ++ [0x7E#8]) = .next t ∧ Fresh t := by
  induction ds generalizing s with
  | nil =>
    obtain ⟨r, hr⟩ := exists_tracks h
    obtain ⟨t, ht, htracks, -⟩ := exec_marker_tracks hr
    exact ⟨t, (andThen_next _).trans ht, fresh_of_idle htracks.inv htracks.mode_eq_idle⟩
  | cons d ds ih =>
    obtain ⟨t, ht, hinv⟩ := exec_inv (decodeByte s.esc d) h
    obtain ⟨u, hu, hfresh⟩ := ih hinv
    refine ⟨u, ?_, hfresh⟩
    rw [List.cons_append, deframeEnd, deframe, ht]
    exact hu

end Sys2Proof.Safety

namespace Sys2Proof.Proofs

open Sys2Proof.Machine Sys2Proof.Safety

/-- Settles O18: the first marker emits what was collected, and the reader takes the stuffing off up to the second. -/
theorem stuffedFramesRoundTrip : Obligations.StuffedFramesRoundTrip := by
  intro s P hinv hpos hle
  rw [deframeFrames_marker hinv, readerFrames_stuff_marker hpos, List.map_cons, cutFrame_of_le hle]
  rfl

/-- Settles O19: the bytes are their own stuffing, and the first marker finds nothing. -/
theorem plainBytesAreTransparent : Obligations.PlainBytesAreTransparent := by
  intro s P hinv hidle hpos hle hm he
  have hempty : s.accLen.toNat = 0 := ((mode_eq_idle_iff s).mp hidle).2
  have hround := stuffedFramesRoundTrip s P hinv hpos hle
  rwa [stuff_of_plain hm he, if_pos hempty] at hround

/-- Settles O20: the source's frame fits, so it is neither cut nor marked. -/
theorem bytesBeforeTheFirstMarkerFormAFrame : Obligations.BytesBeforeTheFirstMarkerFormAFrame := by
  intro s P hinv hidle hpos hle
  rw [deframeFrames_stuff hinv hidle hpos, cutFrame_of_le hle]

/-- Settles O21: the source's frame does not fit, so it is cut and marked; the append without room, CLR and RST as they run. -/
theorem overflowedFramesAreCutAndMarked : Obligations.OverflowedFramesAreCutAndMarked := by
  refine ⟨fun s P hinv hidle hlong => ⟨?_, ?_⟩, fun s hfull v => ?_, fun s => ⟨_, _, rfl, rfl, exec_rst s, rfl⟩⟩
  · rw [deframeFrames_stuff hinv hidle (Nat.one_le_of_lt hlong), cutFrame_of_lt hlong]
  · obtain ⟨t, ht, -, -, hovf⟩ := deframeEnd_marker hinv (stuff P)
    exact ⟨t, ht, hovf⟩
  · rw [exec_data, append_of_full v hfull.ge]
    exact ⟨_, rfl, rfl, rfl, fun _ => rfl⟩

/-- Settles O22: without room an append only marks; in the source's frame the lost byte is one too many. -/
theorem overflowKeepsEscapeHandling : Obligations.OverflowKeepsEscapeHandling := by
  intro s hinv hfull hesc
  refine ⟨⟨_, exec_escape s, rfl, rfl, rfl, fun d => ?_⟩, ?_, ?_⟩
  · rw [exec_escaped, append_of_full (s := setEsc false (noEmission (setEsc true s))) (unescape d) hfull.ge]
    exact ⟨_, rfl, rfl, rfl, rfl, rfl⟩
  · obtain ⟨⟨esc, acc⟩, hr⟩ := exists_tracks hinv
    obtain rfl : esc = false := hr.esc.symm.trans hesc
    have hlost := collected_append (unescape 0x5E#8) hinv hr.frame
    rw [append_of_full _ hfull.ge] at hlost
    rw [deframeFrames_of_tracks _ hr, readerFrames_escape_pair (by decide), readerFrames_marker (by simp), List.map_cons,
      ← hlost]
    rfl
  · obtain ⟨v, hv, hesc, -⟩ := deframeEnd_marker hinv [0x7D#8, 0x5E#8]
    exact ⟨v, hv, hesc⟩

/-- Settles O23: two stuffings in a row are the stuffing of both payloads, and so they are with a plain `5E` between them; a
marker between them ends a frame. -/
theorem desynchronisationIsNotDetected : Obligations.DesynchronisationIsNotDetected := by
  intro s A B hinv hidle hA hB hlen
  have hjoin : (A ++ B).length = A.length + B.length := List.length_append
  have hplain : (A ++ 0x5E#8 :: B).length = A.length + (B.length + 1) := List.length_append
  refine ⟨?_, ?_, ?_⟩
  · rw [← stuff_append]
    exact bytesBeforeTheFirstMarkerFormAFrame s (A ++ B) hinv hidle (by omega) (by omega)
  · rw [deframeFrames_of_idle hinv hidle, readerFrames_stuff_marker hA, readerFrames_stuff_marker hB, List.map_cons,
      List.map_cons, cutFrame_of_le (by omega), cutFrame_of_le (by omega)]
    rfl
  · have hstuff : stuff A ++ 0x5E#8 :: (stuff B ++ [0x7E#8]) = stuff (A ++ 0x5E#8 :: B) ++ [0x7E#8] := by
      rw [stuff_append, List.append_assoc]
      rfl
    rw [hstuff]
    exact bytesBeforeTheFirstMarkerFormAFrame s (A ++ 0x5E#8 :: B) hinv hidle (by omega) (by omega)

end Sys2Proof.Proofs
end

section
/-!
PROOFS. The DEFRAMER's operations one by one (40_deframer.md R78 to R86): what each writes and what it leaves alone.
-/

namespace Sys2Proof.Machine

open Sys2Proof.Safety

/-- `CLR` runs the pseudocode of 40_deframer.md R86. -/
theorem exec_clr (s : State) : exec .clr s = .next (clearDeframer s) := rfl

/-- The mode is set by the pending escape alone when there is one (10_state.md R21). -/
theorem mode_of_esc {s : State} (h : s.esc = true) : mode s = .escapePending := if_pos h

/-- The frame registers hold over a cycle that emits nothing (40_deframer.md R83). -/
structure FrameHeld (s t : State) : Prop where
  frmValid : t.frmValid = false
  frmLen : t.frmLen = s.frmLen
  frmOvf : t.frmOvf = s.frmOvf
  frmBuf : t.frmBuf = s.frmBuf

/-- An append in a cycle that emits nothing leaves alone everything but `acc`, `acc_len`, `acc_ovf` and `frm_valid`. -/
theorem noEmission_append_frame (v : Byte) (s : State) : (noEmission (append v s)).esc = s.esc ∧
    FrameHeld s (noEmission (append v s)) ∧ SameDecoder s (noEmission (append v s)) ∧
    SameInput s (noEmission (append v s)) := by
  obtain ⟨_, _, _, e⟩ := append_frame v s
  rw [e]
  exact ⟨rfl, ⟨rfl, rfl, rfl, rfl⟩, ⟨rfl, rfl, rfl, rfl⟩, rfl, rfl, rfl⟩

/-- With room, an append writes its byte at `acc_len`, and no other byte (20_memory.md R44). -/
theorem append_effect_of_room (v : Byte) {s : State} (h : s.accLen.toNat < Config.accCap) :
    (append v s).accLen.toNat = s.accLen.toNat + 1 ∧ (append v s).accOvf = s.accOvf ∧
    Memory.read (append v s).acc s.accLen.toNat = some v ∧
    ∀ k, k ≠ s.accLen.toNat → Memory.read (append v s).acc k = Memory.read s.acc k := by
  rw [append_of_room v h]
  exact ⟨lenSucc_toNat h, rfl, Memory.read_write_same _ _ _, fun k => Memory.read_write_other s.acc v⟩

/-- Without room, an append sets the mark and writes no byte (40_deframer.md R84). -/
theorem append_effect_of_full (v : Byte) {s : State} (h : Config.accCap ≤ s.accLen.toNat) :
    (append v s).accLen = s.accLen ∧ (append v s).accOvf = true ∧
    ∀ k, Memory.read (append v s).acc k = Memory.read s.acc k := by
  rw [append_of_full v h]
  exact ⟨rfl, rfl, fun _ => rfl⟩

/-- What a marker's emission puts into the frame registers (40_deframer.md R83). -/
structure FrameEmitted (s t : State) : Prop where
  frmValid : t.frmValid = true
  frmLen : t.frmLen = s.accLen
  frmOvf : t.frmOvf = s.accOvf
  frmBuf : ∀ k, k < s.accLen.toNat → Memory.read t.frmBuf k = Memory.read s.acc k

theorem frameEmitted_emission (s : State) : FrameEmitted s (dropContent (emitFrame (setEsc false s))) :=
  ⟨rfl, rfl, rfl, fun k hk => (Memory.read_below s.acc _ k).trans (if_pos hk)⟩

/-! ## The deframer stage and the frame registers -/

/-- With `clr` high and `rst` low the deframer stage is `CLR`, whatever byte is offered (40_deframer.md R86, R87). -/
theorem deframerStage_of_clr {s : State} (u : State) (hr : s.pins.rst = false) (hc : s.pins.clr = true) :
    deframerStage (inputInstr s) u = .next (clearDeframer u) := by
  simp [inputInstr, decodePins, hr, hc, decode, decodeControl, Except.toOption, deframerStage, exec_clr]

/-- Without a byte and without control pins the deframer stage takes no step (40_deframer.md R82). -/
theorem deframerStage_of_silent {s : State} (u : State) (hr : s.pins.rst = false) (hc : s.pins.clr = false)
    (hv : s.pins.inValid = false) : deframerStage (inputInstr s) u = .next (noEmission u) := by
  simp [inputInstr, decodePins, hr, hc, hv, Except.toOption, deframerStage]

/-- A byte operation emits a frame exactly when it is a `MARKER` that finds a byte collected (40_deframer.md R83). -/
theorem exec_byte_emission (esc : Bool) (d : Byte) (s : State) : ∃ t, exec (decodeByte esc d) s = .next t ∧
    ((d = 0x7E#8 ∧ 0 < s.accLen.toNat ∧ FrameEmitted s t) ∨
      (¬ (d = 0x7E#8 ∧ 0 < s.accLen.toNat) ∧ FrameHeld s t)) := by
  rcases decodeByte_cases esc d with ⟨hm, e⟩ | ⟨hm, -, -, e⟩ | ⟨hm, -, -, e⟩ | ⟨hm, -, e⟩ <;> rw [e]
  · rcases Nat.eq_zero_or_pos s.accLen.toNat with hempty | hpos
    · exact ⟨_, exec_marker_of_empty hempty, .inr ⟨fun h => h.2.ne' hempty, rfl, rfl, rfl, rfl⟩⟩
    · exact ⟨_, exec_marker_of_pos hpos, .inl ⟨hm, hpos, frameEmitted_emission s⟩⟩
  · exact ⟨_, exec_escape s, .inr ⟨fun h => hm h.1, rfl, rfl, rfl, rfl⟩⟩
  · obtain ⟨-, hheld, -⟩ := noEmission_append_frame d s
    exact ⟨_, exec_data d s, .inr ⟨fun h => hm h.1, hheld⟩⟩
  · obtain ⟨-, ⟨hvalid, hlen, hovf, hbuf⟩, -⟩ := noEmission_append_frame (unescape d) (setEsc false s)
    exact ⟨_, exec_escaped d s, .inr ⟨fun h => hm h.1, hvalid, hlen, hovf, hbuf⟩⟩

/-- The deframer stage of a cycle without reset emits a frame exactly when it takes a marker that finds a byte collected
(40_deframer.md R83). -/
theorem deframerStage_emission (s u : State) (hr : s.pins.rst = false) :
    ∃ t, deframerStage (inputInstr s) u = .next t ∧
    ((s.pins.clr = false ∧ s.pins.inValid = true ∧ s.pins.inData = 0x7E#8 ∧ 0 < u.accLen.toNat ∧ FrameEmitted u t) ∨
      (¬ (s.pins.clr = false ∧ s.pins.inValid = true ∧ s.pins.inData = 0x7E#8 ∧ 0 < u.accLen.toNat) ∧
        FrameHeld u t)) := by
  rcases inputInstr_cases s hr with ⟨hc, -⟩ | ⟨hc, hv, e⟩ | ⟨hc, hv, -⟩
  · exact ⟨_, deframerStage_of_clr u hr hc, .inr ⟨by simp [hc], rfl, rfl, rfl, rfl⟩⟩
  · simpa only [e, hc, hv, true_and, deframerStage] using exec_byte_emission s.esc s.pins.inData u
  · exact ⟨_, deframerStage_of_silent u hr hc hv, .inr ⟨by simp [hv], rfl, rfl, rfl, rfl⟩⟩

end Sys2Proof.Machine

namespace Sys2Proof.Safety

open Sys2Proof.Machine

/-- A cycle without a byte and without control pins leaves the DEFRAMER as it is and emits nothing (40_deframer.md R82). -/
theorem clock_silent (s : State) {p : Pins} (hr : p.rst = false) (hc : p.clr = false) (hv : p.inValid = false) :
    ∃ t, clock s p = .next t ∧ t.frmValid = false ∧ SameDeframer s t := by
  obtain ⟨_, _, _, _, hu⟩ := decodeStage_next { s with pins := p, trace := [] }
  refine ⟨_, step_stages hr hu (deframerStage_of_silent _ hr hc hv), ?_⟩
  simp [SameDeframer]

end Sys2Proof.Safety

namespace Sys2Proof.Proofs

open Sys2Proof.Machine Sys2Proof.Safety

/-- Settles O1: the two cases of the accumulator, empty and not. -/
theorem markerEmitsAndIdles : Obligations.MarkerEmitsAndIdles := by
  refine ⟨fun _ => rfl, fun s => ⟨exec_marker_of_empty, fun hpos => ⟨_, exec_marker_of_pos hpos, ?_⟩⟩⟩
  obtain ⟨hvalid, hlen, hovf, hbuf⟩ := frameEmitted_emission s
  exact ⟨rfl, BitVec.toNat_zero, rfl, (mode_eq_idle_iff _).mpr ⟨rfl, BitVec.toNat_zero⟩, hvalid, hlen, hovf, hbuf,
    ⟨rfl, rfl, rfl, rfl⟩, rfl, rfl, rfl⟩

/-- Settles O2: the two writes of the operation. -/
theorem escapeSetsPending : Obligations.EscapeSetsPending :=
  ⟨rfl, fun s => ⟨_, exec_escape s, rfl, mode_of_esc rfl, rfl, rfl, fun _ => rfl, rfl, rfl, rfl, fun _ => rfl,
    ⟨rfl, rfl, rfl, rfl⟩, rfl, rfl, rfl⟩⟩

/-- Settles O3: the append with room and without, and its frame. -/
theorem dataAppendsByte : Obligations.DataAppendsByte := by
  refine ⟨fun d hm he => decode_of_rowCondition ⟨rfl, hm, he⟩, fun s d => ⟨_, exec_data d s, ?_⟩⟩
  obtain ⟨hesc, ⟨hvalid, hlen, hovf, hbuf⟩, hdecoder, hinput⟩ := noEmission_append_frame d s
  exact ⟨append_effect_of_room d, append_effect_of_full d, hesc, hvalid, hlen, hovf, fun _ => by rw [hbuf], hdecoder,
    hinput⟩

/-- Settles O4: the append of DATA, of the XORed byte and to the state with the escape cleared. -/
theorem escapedAppendsXored : Obligations.EscapedAppendsXored := by
  refine ⟨fun d hm => decode_of_rowCondition ⟨rfl, hm⟩, fun s d => ⟨_, exec_escaped d s, ?_⟩⟩
  obtain ⟨hesc, ⟨hvalid, hlen, hovf, hbuf⟩, hdecoder, hinput⟩ := noEmission_append_frame (unescape d) (setEsc false s)
  refine ⟨hesc, fun hroom => ?_, append_effect_of_full (s := setEsc false s) (unescape d), hvalid, hlen, hovf,
    fun _ => by rw [hbuf, setEsc_frmBuf], hdecoder, hinput⟩
  obtain ⟨haccLen, haccOvf, hwritten, hother⟩ := append_effect_of_room (s := setEsc false s) (unescape d) hroom
  exact ⟨haccLen, haccOvf, hwritten, fun h => h ▸ hwritten, fun h => h ▸ hwritten, fun h => h ▸ hwritten, hother⟩

/-- Settles O5: the operation as it runs, and the cycle as the decode stage followed by it. -/
theorem clrClearsOnlyTheDeframer : Obligations.ClrClearsOnlyTheDeframer := by
  refine ⟨rfl, fun s => ⟨_, exec_clr s, rfl, BitVec.toNat_zero, rfl,
    (mode_eq_idle_iff _).mpr ⟨rfl, BitVec.toNat_zero⟩, rfl, rfl, rfl, fun _ => rfl, ⟨rfl, rfl, rfl, rfl⟩, rfl, rfl, rfl⟩,
    fun s hr hc => ?_⟩
  obtain ⟨_, _, _, _, hu⟩ := decodeStage_next s
  refine ⟨_, _, step_stages hr hu (deframerStage_of_clr _ hr hc), hu, ?_⟩
  simp [SameDecoder]

/-- Settles O41: a silent cycle keeps the DEFRAMER and emits nothing, and so does any number of them. -/
theorem silentSourceStallsTheDeframer : Obligations.SilentSourceStallsTheDeframer := by
  intro s ps hsilent
  induction ps generalizing s with
  | nil => exact ⟨rfl, s, rfl, rfl, rfl, rfl, rfl⟩
  | cons p ps ih =>
    obtain ⟨⟨hr, hc, hv⟩, hrest⟩ := List.forall_mem_cons.mp hsilent
    obtain ⟨t, ht, hquiet, hesc, hacc, hlen, hovf⟩ := clock_silent s hr hc hv
    obtain ⟨hframes, u, hu, hesc', hacc', hlen', hovf'⟩ := ih t hrest
    refine ⟨?_, u, ?_, hesc.trans hesc', hacc.trans hacc', hlen.trans hlen', hovf.trans hovf'⟩
    · simp [cycleFrames, ht, hframes, emitted, hquiet]
    · simpa only [clockEnd, ht, andThen] using hu

/-- Settles O42: the decode stage leaves the frame registers alone, and the deframer stage emits or holds. -/
theorem frameHoldsUntilTheNextEmission : Obligations.FrameHoldsUntilTheNextEmission := by
  intro s hr
  obtain ⟨_, _, _, _, hu⟩ := decodeStage_next s
  obtain ⟨t, ht, hcases⟩ := deframerStage_emission s _ hr
  refine ⟨_, step_stages hr hu ht, ?_⟩
  simp only [nextInput_frmValid, nextInput_frmLen, nextInput_frmOvf, nextInput_frmBuf]
  rcases hcases with ⟨hc, hv, hd, hpos, hvalid, hlen, hovf, hbuf⟩ | ⟨hnot, hvalid, hlen, hovf, hbuf⟩
  · exact .inl ⟨hc, hv, hd, hpos, hvalid, hlen, hovf, hbuf⟩
  · exact .inr ⟨hnot, hvalid, hlen, hovf, hbuf⟩

end Sys2Proof.Proofs
end

section
/-!
PROOFS. The ROUTER (41_router.md): what DECODE makes of a registered frame, and what of it reaches the DECODER registers.
-/

namespace Sys2Proof.Machine

open Sys2Proof.Safety

/-! ## DECODE of a view -/

/-- `DECODE` in full: the length is tested first, then the type (42_channel_decoder.md R105 to R108). -/
theorem decodeRun_eq (view : List Byte) (adjust : Bool) (s : State) : decodeRun view adjust s =
    if view.length < 23 then { s with decStatus := 0b01#2, decDone := true }
    else if view.head? = some 0x00#8 then commitChannels (channelValues ((view.drop 1).take 22) adjust) s
    else { s with decStatus := 0b10#2, decDone := true } := by
  rcases decodeRun_cases view adjust s with ⟨hlen, e⟩ | ⟨hlen, htype, e⟩ | ⟨hlen, htype, e⟩
  · rw [e, if_pos hlen]
  · rw [e, if_neg hlen.not_gt, if_pos htype]
  · rw [e, if_neg hlen.not_gt, if_neg htype]

/-- A view decodes as its first 23 bytes do (42_channel_decoder.md R116). -/
theorem decodeRun_take (view : List Byte) (adjust : Bool) (s : State) :
    decodeRun (view.take 23) adjust s = decodeRun view adjust s := by
  have hlen : (view.take 23).length < 23 ↔ view.length < 23 := by
    rw [List.length_take]
    omega
  have htype : (view.take 23).head? = view.head? := List.head?_take
  have hpayload : ((view.take 23).drop 1).take 22 = (view.drop 1).take 22 := by
    rw [List.drop_take, List.take_take]
    rfl
  simp only [decodeRun_eq, hlen, htype, hpayload]

/-- What DECODE leaves in the DECODER registers depends on the state only through these registers. -/
theorem sameDecoder_decodeRun (view : List Byte) (adjust : Bool) {s s' : State} (h : SameDecoder s s') :
    SameDecoder (decodeRun view adjust s) (decodeRun view adjust s') := by
  obtain ⟨hch, hloaded, -, -⟩ := h
  rw [decodeRun_eq, decodeRun_eq]
  split_ifs
  · exact ⟨hch, hloaded, rfl, rfl⟩
  · exact ⟨rfl, rfl, rfl, rfl⟩
  · exact ⟨hch, hloaded, rfl, rfl⟩

/-- `DECODE_OK` is DECODE with the sampled `cfg_adjust` it carries (42_channel_decoder.md R105). -/
theorem exec_decodeOk (view : List Byte) (adjust : Bool) (s : State) :
    exec (.decodeOk view adjust) s = .next (decodeRun view adjust s) := rfl

/-- `DECODE_TOO_SHORT` is DECODE of its view (42_channel_decoder.md R106). -/
theorem exec_decodeTooShort (view : List Byte) (s : State) :
    exec (.decodeTooShort view) s = .next (decodeRun view s.pins.cfgAdjust s) := rfl

/-- `DECODE_BAD_TYPE` is DECODE of its view (42_channel_decoder.md R107). -/
theorem exec_decodeBadType (view : List Byte) (s : State) :
    exec (.decodeBadType view) s = .next (decodeRun view s.pins.cfgAdjust s) := rfl

/-- The operation a view decodes to runs DECODE of that view; only an OK view is scaled by `adjust`. -/
theorem exec_decodeView (view : List Byte) (adjust : Bool) (s : State) :
    exec (decodeView view adjust) s = .next (decodeRun view adjust s) := by
  rcases decodeView_cases view adjust with ⟨hlen, e⟩ | ⟨-, -, e⟩ | ⟨hlen, htype, e⟩ <;> rw [e]
  · simp only [exec_decodeTooShort, decodeRun_eq, hlen, if_true]
  · exact exec_decodeOk view adjust s
  · simp only [exec_decodeBadType, decodeRun_eq, hlen.not_gt, htype, if_false]

/-! ## The view of the registered frame -/

/-- The view is the frame less its byte 0 (41_router.md R95). -/
theorem getElem?_frameView {s : State} {k : Nat} (h : k < s.frmLen.toNat - 1) :
    (frameView s)[k]? = some (frmByte s (k + 1)) := by
  simp [frameView, h]

/-- The type byte of the view is byte 1 of the frame (41_router.md R94, R95). -/
theorem head?_frameView {s : State} (h : 2 ≤ s.frmLen.toNat) : (frameView s).head? = some (frmByte s 1) := by
  rw [List.head?_eq_getElem?]
  exact getElem?_frameView (by omega)

/-- The first 23 bytes of the view are `frm_buf[1..23]`, as far as the frame has them (41_router.md R95). -/
theorem take_frameView_congr {s s' : State} (hlen : s.frmLen = s'.frmLen)
    (hbytes : ∀ k, 1 ≤ k → k ≤ 23 → k < s.frmLen.toNat → frmByte s k = frmByte s' k) :
    (frameView s).take 23 = (frameView s').take 23 := by
  simp only [frameView, ← hlen, ← List.map_take, List.take_range]
  refine List.map_congr_left fun k hk => ?_
  have hk' := List.mem_range.mp hk
  exact hbytes (k + 1) (by omega) (by omega) (by omega)

/-- A frame of at most 23 bytes is too short to decode (41_router.md R101). -/
theorem decodeRun_frameView_of_short {s : State} (adjust : Bool) (h : s.frmLen.toNat ≤ 23) :
    decodeRun (frameView s) adjust s = { s with decStatus := 0b01#2, decDone := true } := by
  rw [decodeRun_eq, if_pos (by rw [length_frameView]; omega)]

/-- A control frame of 24 bytes or more loads the channels from `frm_buf[2..23]` (41_router.md R101). -/
theorem decodeRun_frameView_of_long {s : State} (adjust : Bool) (htype : frmByte s 1 = 0x00#8)
    (h : 24 ≤ s.frmLen.toNat) : decodeRun (frameView s) adjust s =
      commitChannels (channelValues ((List.range 22).map fun k => frmByte s (2 + k)) adjust) s := by
  rw [decodeRun_eq, if_neg (by rw [length_frameView]; omega), if_pos (by rw [head?_frameView (by omega), htype]),
    payload_frameView s h]

/-! ## The ROUTER's test -/

/-- A control frame is registered: the test of 41_router.md R94. -/
abbrev ControlFrame (s : State) : Prop := s.frmValid = true ∧ 2 ≤ s.frmLen.toNat ∧ frmByte s 1 = 0x00#8

/-- Without a frame, and with one of one byte or of another type, there is nothing to route (41_router.md R96, R97). -/
theorem not_controlFrame {s : State} (h : s.frmValid = false ∨ s.frmLen.toNat < 2 ∨ frmByte s 1 ≠ 0x00#8) :
    ¬ ControlFrame s := by
  rintro ⟨hvalid, hlen, htype⟩
  rcases h with hn | hn | hn
  · simp [hn] at hvalid
  · omega
  · exact hn htype

/-- The test reads `frm_valid`, `frm_len` and `frm_buf[1]` only (41_router.md R98, R99). -/
theorem controlFrame_congr {s s' : State} (hvalid : s.frmValid = s'.frmValid) (hlen : s.frmLen = s'.frmLen)
    (htype : 2 ≤ s.frmLen.toNat → frmByte s 1 = frmByte s' 1) : ControlFrame s ↔ ControlFrame s' := by
  rw [ControlFrame, ControlFrame, ← hvalid, ← hlen]
  exact and_congr_right fun _ => and_congr_right fun h => by rw [htype h]

/-- `ROUTE` of a control frame is DECODE of its view (41_router.md R94). -/
theorem exec_route_of_controlFrame {s : State} (h : ControlFrame s) :
    exec .route s = .next (decodeRun (frameView s) s.pins.cfgAdjust s) :=
  congrArg _ (if_pos h)

/-- A cycle without reset leaves in the DECODER registers what its decode stage does (70_reset_and_hazards.md R148). -/
theorem step_sameDecoder {s u : State} (hr : s.pins.rst = false) (hu : decodeStage s = .next u) :
    ∃ t, step s = .next t ∧ SameDecoder u t := by
  obtain ⟨_, _, _, _, _, _, _, _, ht⟩ := deframerStage_next s u hr
  refine ⟨_, step_stages hr hu ht, ?_⟩
  simp [SameDecoder]

end Sys2Proof.Machine

namespace Sys2Proof.Proofs

open Sys2Proof.Machine Sys2Proof.Safety

/-- Settles O25: ROUTE is DECODE of the frame's view, and DECODE writes only the DECODER registers. -/
theorem routeDecodesTheView : Obligations.RouteDecodesTheView := by
  intro s hvalid hlen htype
  have hroute := exec_route_of_controlFrame ⟨hvalid, hlen, htype⟩
  refine ⟨decode_of_rowCondition ⟨_, hlen, by rw [htype]⟩, frameView s, _, length_frameView s,
    fun k => getElem?_frameView, hroute.trans (exec_decodeView _ _ s).symm, hroute, ?_⟩
  obtain ⟨_, _, _, e⟩ := decodeRun_frame (frameView s) s.pins.cfgAdjust s
  rw [e]
  exact ⟨rfl, ⟨rfl, rfl, rfl, rfl⟩, ⟨rfl, rfl, rfl, rfl⟩, rfl, rfl, rfl⟩

/-- Settles O39: the step keeps what the decode stage leaves: nothing decoded, a view below 23 bytes, or a full one. -/
theorem decodeOutcomeFollowsTheFrame : Obligations.DecodeOutcomeFollowsTheFrame := by
  intro s hr
  obtain ⟨t, ht, hch, hloaded, hdone, hstatus⟩ := step_sameDecoder hr (decodeStage_eq s)
  refine ⟨t, ht, ?_⟩
  rw [← hch, ← hloaded, ← hdone, ← hstatus]
  refine ⟨fun hnone => ?_, fun hvalid htype hlen hshort => ?_, fun hvalid htype hlong => ?_⟩
  · rw [if_neg (not_controlFrame hnone)]
    exact ⟨rfl, rfl, rfl, rfl⟩
  · rw [if_pos ⟨hvalid, hlen, htype⟩, decodeRun_frameView_of_short _ hshort]
    exact ⟨rfl, rfl, rfl, rfl⟩
  · rw [if_pos ⟨hvalid, by omega, htype⟩, decodeRun_frameView_of_long _ htype hlong]
    exact ⟨rfl, rfl, rfl, fun i => channelValues_get _ _ i.val i.isLt⟩

/-- Settles O26: the frames SKIP stands for, its one write, and the first outcome of a cycle without reset. -/
theorem skipLeavesTheDecoderAlone : Obligations.SkipLeavesTheDecoderAlone := by
  refine ⟨fun len byte1 h => decode_of_rowCondition ⟨len, byte1, h, rfl⟩, fun _ => rfl, fun s hr _ hskip => ?_⟩
  obtain ⟨t, ht, hnone, -⟩ := decodeOutcomeFollowsTheFrame s hr
  obtain ⟨hdone, hstatus, hch, hloaded⟩ := hnone (.inr hskip)
  exact ⟨t, ht, hdone, hch, hloaded, hstatus⟩

/-- Settles O27: the ROUTER's test agrees, and so do the 23 bytes of the view that DECODE reads. -/
theorem routingIgnoresOverflowLenAndCrc : Obligations.RoutingIgnoresOverflowLenAndCrc := by
  intro s s' hvalid hlen hadjust hbytes hdecoder
  refine ⟨_, _, decodeStage_eq s, decodeStage_eq s', ?_⟩
  have htest : ControlFrame s ↔ ControlFrame s' :=
    controlFrame_congr hvalid hlen fun h => hbytes 1 le_rfl (by omega) h
  by_cases hroute : ControlFrame s
  · rw [if_pos hroute, if_pos (htest.mp hroute), ← hadjust, ← decodeRun_take (frameView s),
      ← decodeRun_take (frameView s'), take_frameView_congr hlen hbytes]
    exact sameDecoder_decodeRun _ _ hdecoder
  · rw [if_neg hroute, if_neg (mt htest.mpr hroute)]
    obtain ⟨hch, hloaded, -, hstatus⟩ := hdecoder
    exact ⟨hch, hloaded, rfl, hstatus⟩

end Sys2Proof.Proofs
end

section
/-!
PROOFS. The DECODER (42_channel_decoder.md): the channel values as numbers, the shifter form, and what each outcome writes.
-/

namespace Sys2Proof.Machine

open Sys2Proof.Safety

/-! ## The fields as numbers -/

/-- The low `w` bits of a number, each at its weight, sum up to its residue. -/
theorem sum_testBit (x w : Nat) :
    ((List.range w).map fun j => if x.testBit j = true then 2 ^ j else 0).sum = x % 2 ^ w := by
  induction w with
  | zero => simp [Nat.mod_one]
  | succ w ih =>
    have hbit : (x.testBit w).toNat = x / 2 ^ w % 2 := by
      rw [Nat.testBit_eq_decide_div_mod_eq]
      rcases Nat.mod_two_eq_zero_or_one (x / 2 ^ w) with h | h <;> simp [h]
    rw [List.range_succ, List.map_append, List.sum_append, ih, Nat.mod_pow_succ, ← hbit]
    cases hb : x.testBit w <;> simp [hb]

/-- The number of a channel value: scaled (42_channel_decoder.md R113), or the raw number (R114). -/
theorem channelValue_toNat (adjust : Bool) (r : RawValue) :
    (channelValue adjust r).toNat = if adjust = true then 5 * r.toNat / 8 + 880 else r.toNat := by
  cases adjust with
  | true => exact scale_toNat r
  | false => exact BitVec.toNat_setWidth_of_le (b := r) (by decide)

/-! ## The shifter form -/

/-- Bit `m` of three bytes in a row is bit `m mod 8` of byte `m div 8`, the last one written being byte 0. -/
theorem getLsbD_append_bytes (f : Nat → Byte) {m : Nat} (hm : m < 24) :
    (f 2 ++ f 1 ++ f 0).getLsbD m = (f (m / 8)).getLsbD (m % 8) := by
  rw [BitVec.getLsbD_append, BitVec.getLsbD_append]
  by_cases h0 : m < 8
  · rw [if_pos h0, show m / 8 = 0 by omega, show m % 8 = m by omega]
  · by_cases h1 : m - 8 < 8
    · rw [if_neg h0, if_pos h1, show m / 8 = 1 by omega, show m % 8 = m - 8 by omega]
    · rw [if_neg h0, if_neg h1, show m / 8 = 2 by omega, show m % 8 = m - 8 - 8 by omega]

/-- `CH_MASK` keeps the low 11 bits (42_channel_decoder.md R110). -/
theorem channelMask_getLsbD {n : Nat} (hn : n < 24) : Config.channelMask.getLsbD n = decide (n < 11) := by
  have h : ∀ n : Fin 24, Config.channelMask.getLsbD n.val = decide (n.val < 11) := by decide
  exact h ⟨n, hn⟩

/-- The shifter form in bits (42_channel_decoder.md R110). -/
theorem windowField_getLsbD (b2 b1 b0 : Byte) (shift : Nat) {n : Nat} (hn : n < 24) :
    (windowField b2 b1 b0 shift).getLsbD n = ((b2 ++ b1 ++ b0).getLsbD (shift + n) && decide (n < 11)) := by
  rw [windowField, BitVec.getLsbD_and, channelMask_getLsbD hn, BitVec.getLsbD_ushiftRight]

/-- A shift of at most 5 leaves the field within two bytes, so the third is not seen (42_channel_decoder.md R110). -/
theorem windowField_third_byte {shift : Nat} (h : shift ≤ 5) (x y b1 b0 : Byte) :
    windowField x b1 b0 shift = windowField y b1 b0 shift := by
  refine BitVec.eq_of_getLsbD_eq fun n hn => ?_
  rw [windowField_getLsbD _ _ _ _ hn, windowField_getLsbD _ _ _ _ hn]
  by_cases hfield : n < 11
  · simp only [BitVec.getLsbD_append, show shift + n - 8 < 8 by omega, if_true]
  · simp [hfield]

/-- The shifter form on three bytes of the payload gives the field (42_channel_decoder.md R110). -/
theorem windowField_payload (payload : List Byte) (i : Fin 16) :
    windowField (payload.getD (11 * i.val / 8 + 2) 0#8) (payload.getD (11 * i.val / 8 + 1) 0#8)
        (payload.getD (11 * i.val / 8) 0#8) (11 * i.val % 8) =
      (rawChannel (streamOf payload) i.val).setWidth 24 := by
  refine BitVec.eq_of_getLsbD_eq fun n hn => ?_
  rw [windowField_getLsbD _ _ _ _ hn, BitVec.getLsbD_setWidth, decide_eq_true hn, Bool.true_and]
  by_cases hfield : n < 11
  · have hbit : 11 * i.val + n = 8 * (11 * i.val / 8 + (11 * i.val % 8 + n) / 8) + (11 * i.val % 8 + n) % 8 := by omega
    rw [decide_eq_true hfield, Bool.and_true, rawChannel_getLsbD _ _ hfield, hbit,
      streamOf_getLsbD payload (by omega) (by omega)]
    exact getLsbD_append_bytes (fun k => payload.getD (11 * i.val / 8 + k) 0#8) (by omega)
  · rw [decide_eq_false hfield, Bool.and_false, BitVec.getLsbD_of_ge _ _ (by omega)]

/-! ## The three outcomes -/

/-- DECODE leaves everything outside the DECODER registers as it is (42_channel_decoder.md R115). -/
theorem decodeRun_writes_only_decoder (view : List Byte) (adjust : Bool) (s : State) :
    SameDeframer s (decodeRun view adjust s) ∧ SameFrame s (decodeRun view adjust s) ∧
    SameInput s (decodeRun view adjust s) := by
  obtain ⟨_, _, _, e⟩ := decodeRun_frame view adjust s
  rw [e]
  exact ⟨⟨rfl, rfl, rfl, rfl⟩, ⟨rfl, rfl, rfl, rfl⟩, rfl, rfl, rfl⟩

/-- A short view is reported and nothing else is written (42_channel_decoder.md R106). -/
theorem decodeRun_of_short {view : List Byte} (adjust : Bool) (s : State) (hlen : view.length < 23) :
    decodeRun view adjust s = { s with decStatus := 0b01#2, decDone := true } := by
  rw [decodeRun_eq, if_pos hlen]

/-- A control view that is long enough loads the channels (42_channel_decoder.md R109). -/
theorem decodeRun_of_control {view : List Byte} (adjust : Bool) (s : State) (hlen : 23 ≤ view.length)
    (htype : view.head? = some 0x00#8) :
    decodeRun view adjust s = commitChannels (channelValues ((view.drop 1).take 22) adjust) s := by
  rw [decodeRun_eq, if_neg hlen.not_gt, if_pos htype]

/-- A long enough view of another type is reported and nothing else is written (42_channel_decoder.md R107). -/
theorem decodeRun_of_otherType {view : List Byte} (adjust : Bool) (s : State) (hlen : 23 ≤ view.length)
    (htype : view.head? ≠ some 0x00#8) :
    decodeRun view adjust s = { s with decStatus := 0b10#2, decDone := true } := by
  rw [decodeRun_eq, if_neg hlen.not_gt, if_neg htype]

end Sys2Proof.Machine

namespace Sys2Proof.Safety

open Sys2Proof.Machine

/-- Within the 22 payload bytes the source's bits are those of the stream (20_memory.md R49). -/
theorem streamOf_take_getLsbD (payload : List Byte) {n : Nat} (hn : n < 176) :
    (streamOf (payload.take 22)).getLsbD n = payloadBit payload n := by
  have hget : (payload.take 22).getD (n / 8) 0#8 = payload.getD (n / 8) 0#8 := by
    rw [List.getD_eq_getElem?_getD, List.getElem?_take_of_lt (by omega), ← List.getD_eq_getElem?_getD]
  rw [payloadBit, ← hget, ← streamOf_getLsbD _ (by omega) (by omega), Nat.div_add_mod]

/-- A raw channel is the source's channel: the sum of its 11 bits at their weights (30_encoding.md R69). -/
theorem rawChannel_toNat (payload : List Byte) {i : Nat} (hi : i < 16) :
    (rawChannel (streamOf (payload.take 22)) i).toNat = sourceChannel payload i := by
  rw [← Nat.mod_eq_of_lt (rawChannel (streamOf (payload.take 22)) i).isLt, ← sum_testBit, sourceChannel]
  refine congrArg List.sum (List.map_congr_left fun j hj => ?_)
  have hj' : j < 11 := List.mem_range.mp hj
  rw [BitVec.testBit_toNat, rawChannel_getLsbD _ _ hj', streamOf_take_getLsbD payload (by omega)]

/-- A channel register after a commit holds the source's channel value (42_channel_decoder.md R113, R114). -/
theorem channelValues_get_toNat (payload : List Byte) (adjust : Bool) (i : Nat) (hi : i < 16) :
    ((channelValues (payload.take 22) adjust)[i]).toNat =
      if adjust = true then 5 * sourceChannel payload i / 8 + 880 else sourceChannel payload i := by
  rw [channelValues_get, channelValue_toNat, rawChannel_toNat payload hi]

end Sys2Proof.Safety

namespace Sys2Proof.Proofs

open Sys2Proof.Machine Sys2Proof.Safety

/-- Settles O28: DECODE of a control view is the commit of the source's channel values. -/
theorem decodeOkWritesSixteenChannels : Obligations.DecodeOkWritesSixteenChannels := by
  intro view adjust s hlen htype
  have hframe := decodeRun_writes_only_decoder view adjust s
  refine ⟨_, exec_decodeOk view adjust s, ?_⟩
  rw [decodeRun_of_control adjust s hlen htype] at hframe ⊢
  refine ⟨fun i => ?_, rfl, rfl, rfl, hframe⟩
  rw [commitChannels_ch, Fin.getElem_fin, channelValues_get_toNat]

/-- Settles O29: the length is tested before the type. -/
theorem shortViewsReportTooShort : Obligations.ShortViewsReportTooShort :=
  fun _ _ s hlen => ⟨if_pos hlen, congrArg _ (decodeRun_of_short s.pins.cfgAdjust s hlen)⟩

/-- Settles O30: the type is tested last; through the ROUTER a frame is not decoded, too short, or OK. -/
theorem otherTypesReportInvalidType : Obligations.OtherTypesReportInvalidType := by
  refine ⟨fun view adjust s hlen htype => ⟨?_, ?_⟩, fun s hr => ?_⟩
  · exact (if_neg hlen.not_gt).trans (if_neg htype)
  · exact congrArg _ (decodeRun_of_otherType s.pins.cfgAdjust s hlen htype)
  · obtain ⟨t, ht, hnone, hshort, hlong⟩ := decodeOutcomeFollowsTheFrame s hr
    refine ⟨t, ht, fun hdone => ?_⟩
    by_cases hskip : s.frmValid = false ∨ s.frmLen.toNat < 2 ∨ frmByte s 1 ≠ 0x00#8
    · simp [(hnone hskip).1] at hdone
    · simp only [not_or, Bool.not_eq_false, Nat.not_lt, not_not] at hskip
      obtain ⟨hvalid, hlen, htype⟩ := hskip
      rcases Nat.lt_or_ge s.frmLen.toNat 24 with h | h
      · obtain ⟨-, hstatus, -⟩ := hshort hvalid htype hlen (by omega)
        simp [hstatus]
      · obtain ⟨-, hstatus, -⟩ := hlong hvalid htype h
        simp [hstatus]

/-- Settles O32: the window of three payload bytes, the third replaced where it is not seen. -/
theorem shifterFormGivesTheField : Obligations.ShifterFormGivesTheField := by
  intro payload i x _
  rw [← windowField_payload]
  split
  · exact windowField_third_byte ‹_› _ _ _ _
  · rfl

/-- Settles O34: a raw value has 11 bits, and the scaling takes these into the range. -/
theorem channelValuesAreInRange : Obligations.ChannelValuesAreInRange := by
  intro view s hlen htype
  refine ⟨⟨_, exec_decodeOk view false s, fun i => ?_⟩, ⟨_, exec_decodeOk view true s, fun i => ?_⟩⟩ <;>
    rw [decodeRun_of_control _ s hlen htype, commitChannels_ch, Fin.getElem_fin, channelValues_get]
  · have hraw := (rawChannel (streamOf ((view.drop 1).take 22)) i.val).isLt
    rw [channelValue_toNat, if_neg Bool.false_ne_true]
    omega
  · refine ⟨?_, channelValue_le true _⟩
    rw [channelValue_toNat, if_pos rfl]
    omega

/-- Settles O35: the scaled number grows with the raw one, by less than one a step. -/
theorem scalingIsMonotonic : Obligations.ScalingIsMonotonic := by
  refine ⟨fun a b hab => ?_, by decide, by decide, by decide, by decide⟩
  have hab' : a.toNat < b.toNat := hab
  rw [BitVec.le_def, scale_toNat, scale_toNat]
  omega

/-- Settles O36: both views decode as their first 23 bytes, which are the same. -/
theorem decodeReadsOnlyTwentyThreeBytes : Obligations.DecodeReadsOnlyTwentyThreeBytes := by
  intro v v' adjust s _ htake
  rw [exec_decodeView, exec_decodeView, ← decodeRun_take v, htake, decodeRun_take]

end Sys2Proof.Proofs
end

section
/-!
PROOFS. The CORE against the unbounded source pipeline (42_channel_decoder.md R117): cycle by cycle the DEFRAMER stands where
the source's reader stands, the registered frame is the one the source has returned, and the DECODER reports what the
source's caller does.
-/

namespace Sys2Proof.Safety

open Sys2Proof.Machine

variable {s u : State} {r : Reader} {l : SourceLine} {p : Pins}

/-! ## DECODE and the source's decoder -/

/-- The channels of an OK event are the source's, in order. -/
theorem channelValues_toList (payload : List Byte) (adjust : Bool) :
    (channelValues (payload.take 22) adjust).toList.map BitVec.toNat = (List.range 16).map fun i =>
      if adjust = true then 5 * sourceChannel payload i / 8 + 880 else sourceChannel payload i := by
  refine List.ext_getElem (by simp) fun i hi _ => ?_
  simp only [List.getElem_map, List.getElem_range, Vector.getElem_toList]
  exact channelValues_get_toNat payload adjust i (by simpa using hi)

/-- DECODE reports what the source's decoder reports (42_channel_decoder.md R105 to R109). -/
theorem decodeEvent_decodeRun (view : List Byte) (adjust : Bool) (s : State) :
    decodeEvent (decodeRun view adjust s) = some (sourceDecode view adjust) := by
  unfold sourceDecode
  rcases decodeRun_cases view adjust s with ⟨hlen, e⟩ | ⟨hlen, htype, e⟩ | ⟨hlen, htype, e⟩ <;> rw [e]
  · rw [if_pos hlen]
    rfl
  · rw [if_neg hlen.not_gt, if_neg (not_not.mpr htype), ← channelValues_toList]
    rfl
  · rw [if_neg hlen.not_gt, if_pos htype]
    rfl

/-- An event is read from the DECODER registers alone. -/
theorem decodeEvent_congr (h : SameDecoder s u) : decodeEvent s = decodeEvent u := by
  obtain ⟨hch, -, hdone, hstatus⟩ := h
  simp only [decodeEvent, hch, hdone, hstatus]

/-! ## The registered frame and the source's returned frame -/

/-- The view is the frame's bytes less the first (41_router.md R95). -/
theorem frameView_eq_drop (s : State) : frameView s = (frameBytes s).drop 1 := by
  refine List.ext_getElem (by simp) fun k _ _ => ?_
  simp [frameView, frameBytes]

/-- The ROUTER's test is the caller's test on the registered frame (41_router.md R94). -/
theorem controlFrame_iff (hv : s.frmValid = true) : ControlFrame s ↔ (frameBytes s)[1]? = some 0x00#8 := by
  by_cases hlen : 2 ≤ s.frmLen.toNat
  · simp [ControlFrame, hv, frameBytes, hlen, Nat.lt_of_succ_le hlen]
  · simp [ControlFrame, frameBytes, hlen, Nat.le_of_lt_succ (Nat.lt_of_not_le hlen)]

/-- The decode stage reports what the source's caller makes of the returned frame: the cut at `ACC_CAP` is beyond the bytes
that are looked at (42_channel_decoder.md R117). -/
theorem decodeStage_event (h : emitted s = l.returned.map cutFrame) : ∃ u, decodeStage s = .next u ∧
    decodeEvent u = l.returned.bind fun f => sourceCall f s.pins.cfgAdjust := by
  refine ⟨_, decodeStage_eq s, ?_⟩
  cases hret : l.returned with
  | none =>
    have hv : ¬ s.frmValid = true := fun hv => by simp [emitted, hv, hret] at h
    rw [if_neg fun hc => hv hc.1]
    rfl
  | some f =>
    have hv : s.frmValid = true := by by_contra hv; simp [emitted, hv, hret] at h
    have hbytes : frameBytes s = f.take Config.accCap := by
      simpa [emitted, hv, hret, cutFrame] using congrArg (Option.map Frame.bytes) h
    have hcap := accCap_ge
    have htest : ControlFrame s ↔ f[1]? = some 0x00#8 := by
      rw [controlFrame_iff hv, hbytes, List.getElem?_take_of_lt (by omega)]
    have hview : (frameView s).take 23 = (f.drop 1).take 23 := by
      rw [frameView_eq_drop, hbytes, List.drop_take, List.take_take, Nat.min_eq_left (by omega)]
    rw [Option.bind_some, sourceCall]
    by_cases hc : ControlFrame s
    · rw [if_pos hc, if_pos (htest.mp hc), ← decodeRun_take, hview, decodeRun_take, decodeEvent_decodeRun]
    · rw [if_neg hc, if_neg (mt htest.mpr hc)]
      rfl

/-! ## The simulation, cycle by cycle -/

/-- Under the invariant every byte of an emitted frame has a value, so the frame is read from the frame registers alone. -/
theorem emitted_eq (h : Inv s) : emitted s =
    if s.frmValid = true then some { bytes := s.frmBuf.map Prod.snd, ovf := s.frmOvf } else none := by
  rw [emitted, frameBytes_of_range h.frmCells]

theorem emitted_nextInput (h : Inv s) : emitted (nextInput s) = emitted s := by
  rw [emitted_eq h, emitted_eq (inv_nextInput h)]
  simp

/-- Where the reader stands is read from the DEFRAMER registers alone. -/
theorem Tracks.congr (h : Tracks s r) (hu : Inv u) (he : SameDeframer s u) : Tracks u r := by
  obtain ⟨hesc, hacc, -, hovf⟩ := he
  refine ⟨hu, hesc ▸ h.esc, ?_⟩
  rw [← h.frame, collected, collected, content, content, hacc, hovf]

/-- The CORE stands where the source pipeline stands between two cycles: its reader, and the frame just returned. -/
structure TracksLine (s : State) (l : SourceLine) : Prop where
  tracks : Tracks s l.reader
  frame : emitted s = l.returned.map cutFrame

/-- The input side is no part of the relation. -/
theorem TracksLine.nextInput (h : TracksLine s l) : TracksLine (nextInput s) l where
  tracks := h.tracks.congr (inv_nextInput h.tracks.inv) (by simp [SameDeframer])
  frame := (emitted_nextInput h.tracks.inv).trans h.frame

/-- The decode stage leaves the DEFRAMER where the reader stands (70_reset_and_hazards.md R148). -/
theorem tracks_of_decodeStage (h : Tracks s r) (hu : decodeStage s = .next u) : Tracks u r := by
  obtain ⟨u', hu', hinv⟩ := decodeStage_inv h.inv
  obtain ⟨_, _, _, _, hwrites⟩ := decodeStage_next s
  obtain rfl : u' = u := Host.Outcome.next.inj (hu'.symm.trans hu)
  obtain rfl := Host.Outcome.next.inj (hu'.symm.trans hwrites)
  exact h.congr hinv ⟨rfl, rfl, rfl, rfl⟩

/-- The deframer stage of a cycle without reset keeps the CORE where the source pipeline stands. -/
theorem deframerStage_tracksLine (h : Tracks u l.reader) (hr : s.pins.rst = false) (hesc : s.esc = u.esc) :
    ∃ t, deframerStage (inputInstr s) u = .next t ∧ TracksLine t (sourceCycle l s.pins) := by
  unfold sourceCycle
  rcases inputInstr_cases s hr with ⟨hc, -⟩ | ⟨hc, hv, e⟩ | ⟨hc, hv, -⟩
  · rw [if_pos hc]
    have hinv : Inv (clearDeframer u) := inv_of_exec h.inv (exec_clr u)
    exact ⟨_, deframerStage_of_clr u hr hc, tracks_new hinv ⟨rfl, BitVec.toNat_zero, rfl⟩, rfl⟩
  · obtain ⟨t, ht, htracks, hemit⟩ := deframe_tracks s.pins.inData h
    rw [if_neg (by simp [hc]), if_pos hv, e, hesc]
    exact ⟨t, ht, htracks, hemit⟩
  · rw [if_neg (by simp [hc]), if_neg (by simp [hv])]
    exact ⟨_, deframerStage_of_silent u hr hc hv, h.congr (inv_noEmission h.inv) ⟨rfl, rfl, rfl, rfl⟩, rfl⟩

/-- One step without reset keeps the CORE where the source pipeline stands, and reports what the pipeline does. -/
theorem step_tracksLine (h : TracksLine s l) (hr : s.pins.rst = false) : ∃ t, step s = .next t ∧
    TracksLine t (sourceCycle l s.pins) ∧ decodeEvent t = l.returned.bind fun f => sourceCall f s.pins.cfgAdjust := by
  obtain ⟨u, hu, hevent⟩ := decodeStage_event h.frame
  have hreader := tracks_of_decodeStage h.tracks hu
  obtain ⟨t, ht, hline⟩ := deframerStage_tracksLine hreader hr (h.tracks.esc.trans hreader.esc.symm)
  obtain ⟨t', hstep, hdecoder⟩ := step_sameDecoder hr hu
  obtain rfl : t' = nextInput t := Host.Outcome.next.inj (hstep.symm.trans (step_stages hr hu ht))
  exact ⟨_, hstep, hline.nextInput, (decodeEvent_congr hdecoder).symm.trans hevent⟩

/-- A clock cycle with given pins is the step with these pins. -/
theorem clock_tracksLine (h : TracksLine s l) (hr : p.rst = false) : ∃ t, clock s p = .next t ∧
    TracksLine t (sourceCycle l p) ∧ decodeEvent t = l.returned.bind fun f => sourceCall f p.cfgAdjust := by
  have hpins : TracksLine { s with pins := p, trace := [] } l :=
    ⟨h.tracks.congr (inv_input p [] s.freeIndex h.tracks.inv) ⟨rfl, rfl, rfl, rfl⟩, h.frame⟩
  exact step_tracksLine hpins hr

/-- Over any input cycles without reset the decode events are the source pipeline's (42_channel_decoder.md R117). -/
theorem decodeEvents_of_tracksLine (ps : List Pins) (h : TracksLine s l) (hr : ∀ p ∈ ps, p.rst = false) :
    decodeEvents s ps = sourceEvents l ps := by
  induction ps generalizing s l with
  | nil => rfl
  | cons p ps ih =>
    obtain ⟨hp, hps⟩ := List.forall_mem_cons.mp hr
    obtain ⟨t, ht, hline, hevent⟩ := clock_tracksLine h hp
    simp only [decodeEvents, ht, sourceEvents, hevent, ih hline hps]

end Sys2Proof.Safety

namespace Sys2Proof.Proofs

open Sys2Proof.Machine Sys2Proof.Safety

/-- Settles O54: a fresh CORE without a registered frame stands where a new source pipeline stands, and every cycle keeps it
there. -/
theorem decodingAgreesWithUnboundedSource : Obligations.DecodingAgreesWithUnboundedSource := by
  intro s ps hinv hfresh hquiet hr
  refine decodeEvents_of_tracksLine ps ⟨tracks_new hinv hfresh, ?_⟩ hr
  simp [emitted, hquiet]

end Sys2Proof.Proofs
end

section
/-!
PROOFS. The CORE goes on: every step answers a next state (60_exceptions.md R131, 70_reset_and_hazards.md R146).
-/

namespace Sys2Proof.Machine

/-- A step without reset answers: its decode stage does, and so does its deframer stage (60_exceptions.md R131). -/
theorem step_next_of_rst_false {s : State} (hr : s.pins.rst = false) : ∃ t, step s = .next t := by
  obtain ⟨_, _, _, _, hu⟩ := decodeStage_next s
  obtain ⟨_, _, _, _, _, _, _, _, ht⟩ := deframerStage_next s _ hr
  exact ⟨_, step_stages hr hu ht⟩

end Sys2Proof.Machine

namespace Sys2Proof.Proofs

open Sys2Proof.Machine

/-- Settles O38: a reset cycle answers the reset registers, and both stages of any other cycle answer. -/
theorem stepAlwaysAnswers : Obligations.StepAlwaysAnswers := by
  intro s
  cases hr : s.pins.rst with
  | true => exact ⟨_, step_rst s hr⟩
  | false => exact step_next_of_rst_false hr

end Sys2Proof.Proofs
end

section
/-!
PROOFS. The spacing of emissions and of OK decodes (70_reset_and_hazards.md R149): in every cycle `acc_len` grows by at most the
byte accepted, so a frame needs its bytes and its marker since the last emission.
-/

namespace Sys2Proof.Safety

open Sys2Proof.Machine

variable {s t : State} {p : Pins} {n : Nat}

/-! ## The accepted bytes -/

theorem acceptedBytes_cons (p : Pins) (ps : List Pins) : acceptedBytes (p :: ps) = acceptedBytes [p] ++ acceptedBytes ps :=
  List.filterMap_append (l := [p])

theorem acceptedBytes_of_offered (hr : p.rst = false) (hc : p.clr = false) (hv : p.inValid = true) :
    acceptedBytes [p] = [p.inData] := by
  simp [acceptedBytes, hr, hc, hv]

theorem acceptedBytes_of_silent (hv : p.inValid = false) : acceptedBytes [p] = [] := by
  simp [acceptedBytes, hv]

/-- A cycle accepts at most one byte (10_state.md R27). -/
theorem length_acceptedBytes_le (p : Pins) : (acceptedBytes [p]).length ≤ 1 :=
  List.length_filterMap_le _ [p]

/-! ## The lengths in one cycle -/

/-- What a cycle that accepts `n` bytes does to the length being collected and to the frame registers: an emission takes the
whole length, and a marker of its own (40_deframer.md R78, R83). -/
structure LengthStep (n : Nat) (s t : State) : Prop where
  accLen_le : t.accLen.toNat ≤ s.accLen.toNat + n
  emission : t.frmValid = true → 0 < s.accLen.toNat ∧ t.frmLen = s.accLen ∧ t.accLen.toNat = 0 ∧ n = 1

/-- A cycle that emits nothing only has to keep the length bounded. -/
theorem LengthStep.of_quiet (hv : t.frmValid = false) (hlen : t.accLen.toNat ≤ s.accLen.toNat + n) : LengthStep n s t :=
  ⟨hlen, fun h => by simp [hv] at h⟩

theorem append_accLen_le (v : Byte) (s : State) : (append v s).accLen.toNat ≤ s.accLen.toNat + 1 := by
  rcases Nat.lt_or_ge s.accLen.toNat Config.accCap with hroom | hfull
  · exact (append_effect_of_room v hroom).1.le
  · rw [append_accLen_of_full v hfull]
    exact Nat.le_succ _

theorem exec_byte_lengthStep (esc : Bool) (d : Byte) (s : State) :
    ∃ t, exec (decodeByte esc d) s = .next t ∧ LengthStep 1 s t := by
  rcases decodeByte_cases esc d with ⟨-, e⟩ | ⟨-, -, -, e⟩ | ⟨-, -, -, e⟩ | ⟨-, -, e⟩ <;> rw [e]
  · rcases Nat.eq_zero_or_pos s.accLen.toNat with hempty | hpos
    · exact ⟨_, exec_marker_of_empty hempty, .of_quiet rfl (Nat.le_succ _)⟩
    · exact ⟨_, exec_marker_of_pos hpos, by simp, fun _ => ⟨hpos, rfl, BitVec.toNat_zero, rfl⟩⟩
  · exact ⟨_, exec_escape s, .of_quiet rfl (Nat.le_succ _)⟩
  · exact ⟨_, exec_data d s, .of_quiet rfl (append_accLen_le d s)⟩
  · exact ⟨_, exec_escaped d s, .of_quiet rfl (append_accLen_le (unescape d) (setEsc false s))⟩

theorem deframerStage_lengthStep (s u : State) (hr : s.pins.rst = false) :
    ∃ t, deframerStage (inputInstr s) u = .next t ∧ LengthStep (acceptedBytes [s.pins]).length u t := by
  rcases inputInstr_cases s hr with ⟨hc, -⟩ | ⟨hc, hv, e⟩ | ⟨hc, hv, -⟩
  · exact ⟨_, deframerStage_of_clr u hr hc, .of_quiet rfl (by simp)⟩
  · rw [e, acceptedBytes_of_offered hr hc hv]
    exact exec_byte_lengthStep s.esc s.pins.inData u
  · exact ⟨_, deframerStage_of_silent u hr hc hv, .of_quiet rfl (Nat.le_add_right _ _)⟩

/-- Every step, a reset among them, moves the lengths on by no more than the byte it accepts. -/
theorem step_lengthStep (h : step s = .next t) : LengthStep (acceptedBytes [s.pins]).length s t := by
  cases hr : s.pins.rst with
  | true =>
    obtain rfl := Host.Outcome.next.inj ((step_rst s hr).symm.trans h)
    exact .of_quiet (by simp) (by simp)
  | false =>
    obtain ⟨_, _, _, _, hu⟩ := decodeStage_next s
    obtain ⟨v, hv, hlen, hemit⟩ := deframerStage_lengthStep s _ hr
    obtain rfl := Host.Outcome.next.inj ((step_stages hr hu hv).symm.trans h)
    exact ⟨by simpa using hlen, by simpa using hemit⟩

/-- An OK decode at an edge is that of a frame of at least 24 bytes, registered before it (41_router.md R101). -/
theorem frame_of_ok_decode (h : step s = .next t) (hdone : t.decDone = true) (hok : t.decStatus = 0b00#2) :
    s.frmValid = true ∧ 24 ≤ s.frmLen.toNat := by
  cases hr : s.pins.rst with
  | true =>
    obtain rfl := Host.Outcome.next.inj ((step_rst s hr).symm.trans h)
    simp at hdone
  | false =>
    obtain ⟨u, hu, hcases⟩ := decodeStage_channels s
    obtain ⟨t', ht', -, -, hdone', hstatus'⟩ := step_sameDecoder hr hu
    obtain rfl := Host.Outcome.next.inj (ht'.symm.trans h)
    rcases hcases with ⟨-, -, -, hframe⟩ | ⟨hno, -⟩
    · exact hframe
    · exact absurd ⟨hdone'.trans hdone, hstatus'.trans hok⟩ hno

/-! ## The lengths over a run -/

/-- What the CORE has collected stems from `n` accepted bytes: `acc_len` counts no more of them, and a registered frame holds
fewer, since one was its marker. -/
structure WithinAccepted (n : Nat) (s : State) : Prop where
  accLen_le : s.accLen.toNat ≤ n
  frmLen_lt : s.frmValid = true → s.frmLen.toNat < n

theorem step_withinAccepted (hs : WithinAccepted n s) (h : step s = .next t) :
    WithinAccepted (n + (acceptedBytes [s.pins]).length) t := by
  obtain ⟨hlen, hemit⟩ := step_lengthStep h
  have hs := hs.accLen_le
  refine ⟨by omega, fun hv => ?_⟩
  obtain ⟨-, hfrm, -, hone⟩ := hemit hv
  rw [hfrm, hone]
  omega

/-- Every clock cycle answers (60_exceptions.md R131). -/
theorem clock_next (s : State) (p : Pins) : ∃ t, clock s p = .next t := Proofs.stepAlwaysAnswers _

theorem clock_withinAccepted (hs : WithinAccepted n s) (h : clock s p = .next t) :
    WithinAccepted (n + (acceptedBytes [p]).length) t :=
  step_withinAccepted (s := { s with pins := p, trace := [] }) ⟨hs.accLen_le, hs.frmLen_lt⟩ h

theorem clockEnd_withinAccepted (ps : List Pins) (hs : WithinAccepted n s) (h : clockEnd s ps = .next t) :
    WithinAccepted (n + (acceptedBytes ps).length) t := by
  induction ps generalizing s n with
  | nil =>
    obtain rfl := Host.Outcome.next.inj h
    exact hs
  | cons p ps ih =>
    obtain ⟨u, hu⟩ := clock_next s p
    rw [acceptedBytes_cons, List.length_append, ← Nat.add_assoc]
    exact ih (clock_withinAccepted hs hu) (by simpa only [clockEnd, hu, andThen] using h)

/-- After an OK decode only the byte accepted in its own cycle counts: the decode needs a registered frame, and its emission
left the accumulator empty. -/
theorem withinAccepted_of_ok_decode (hinv : Inv s) (h : step s = .next t) (hdone : t.decDone = true)
    (hok : t.decStatus = 0b00#2) : WithinAccepted (acceptedBytes [s.pins]).length t := by
  obtain ⟨hvalid, -⟩ := frame_of_ok_decode h hdone hok
  obtain ⟨-, hempty, -⟩ := hinv.emitted_idle hvalid
  obtain ⟨hlen, hemit⟩ := step_lengthStep h
  refine ⟨by omega, fun hv => ?_⟩
  obtain ⟨hpos, -⟩ := hemit hv
  omega

/-- An OK decode needs 25 accepted bytes: the 24 of its frame and the marker. -/
theorem accepted_of_ok_decode (hs : WithinAccepted n s) (h : clock s p = .next t) (hdone : t.decDone = true)
    (hok : t.decStatus = 0b00#2) : 25 ≤ n := by
  obtain ⟨hvalid, hlong⟩ := frame_of_ok_decode h hdone hok
  exact hlong.trans_lt (hs.frmLen_lt hvalid)

/-- The events of a run: that of its first cycle, and those of the rest. -/
theorem decodeEvents_cons (ht : clock s p = .next t) (ps : List Pins) :
    decodeEvents s (p :: ps) = (decodeEvent t).toList ++ decodeEvents t ps := by
  simp only [decodeEvents, ht]

/-- A decode event is read in a `dec_done` cycle and carries its `dec_status` (70_reset_and_hazards.md R156). -/
theorem of_decodeEvent_eq_some {e : DecodeEvent} (h : decodeEvent t = some e) : t.decDone = true ∧ e.status = t.decStatus := by
  unfold decodeEvent at h
  split at h
  · obtain rfl := Option.some.inj h
    exact ⟨‹_›, rfl⟩
  · cases h

/-- As a cycle accepts at most one byte, no decode is OK before 25 cycles have gone by. -/
theorem decodeEvents_not_ok (ps : List Pins) (hs : WithinAccepted n s) (hn : n + ps.length ≤ 25) :
    ∀ e ∈ decodeEvents s ps, e.status ≠ 0b00#2 := by
  induction ps generalizing s n with
  | nil => exact fun e he => absurd he List.not_mem_nil
  | cons p ps ih =>
    obtain ⟨t, ht⟩ := clock_next s p
    rw [List.length_cons] at hn
    rw [decodeEvents_cons ht, List.forall_mem_append]
    refine ⟨fun e he hok => ?_, ih (clock_withinAccepted hs ht) ?_⟩
    · obtain ⟨hdone, hstatus⟩ := of_decodeEvent_eq_some (Option.mem_toList.mp he)
      have := accepted_of_ok_decode hs ht hdone (hstatus ▸ hok)
      omega
    · have := length_acceptedBytes_le p
      omega

end Sys2Proof.Safety

namespace Sys2Proof.Proofs

open Sys2Proof.Machine Sys2Proof.Safety

/-- Settles O44: an emission empties the accumulator, and the bytes accepted since then bound the length of the next frame. -/
theorem emissionsAndDecodesAreSpaced : Obligations.EmissionsAndDecodesAreSpaced := by
  refine ⟨fun s t h hv => ?_, fun s t hinv h hdone hok ps hps => ?_,
    fun s t hinv h hdone hok ps p u v hu hv hdone' hok' => ?_⟩
  · obtain ⟨-, -, hempty, -⟩ := (step_lengthStep h).emission hv
    refine ⟨hempty, fun u hu => Bool.eq_false_iff.mpr fun hvu => ?_⟩
    obtain ⟨hpos, -⟩ := (step_lengthStep hu).emission hvu
    omega
  · have hone := length_acceptedBytes_le s.pins
    exact decodeEvents_not_ok ps (withinAccepted_of_ok_decode hinv h hdone hok) (by omega)
  · rw [acceptedBytes_cons, List.length_append]
    exact accepted_of_ok_decode (clockEnd_withinAccepted ps (withinAccepted_of_ok_decode hinv h hdone hok) hu) hv hdone' hok'

end Sys2Proof.Proofs
end

section
/-!
PROOFS. Cycles and transactions (70_reset_and_hazards.md R155): without control pins the frames of a run are the source's on the
accepted bytes, and so are those of the transactions.
-/

namespace Sys2Proof.Safety

open Sys2Proof.Machine

variable {s t : State} {r : Reader} {p : Pins}

/-- One cycle without reset keeps the DEFRAMER where the reader stands, whatever frame is registered, and emits what the reader
returns. -/
theorem clock_reader (h : Tracks s r) (hr : p.rst = false) :
    ∃ t, clock s p = .next t ∧ TracksLine t (sourceCycle { reader := r, returned := none } p) := by
  have hpins : Tracks { s with pins := p, trace := [] } r :=
    h.congr (inv_input p [] s.freeIndex h.inv) ⟨rfl, rfl, rfl, rfl⟩
  obtain ⟨_, _, _, _, hu⟩ := decodeStage_next { s with pins := p, trace := [] }
  obtain ⟨t, ht, hline⟩ := deframerStage_tracksLine (l := { reader := r, returned := none })
    (tracks_of_decodeStage hpins hu) hr rfl
  exact ⟨_, step_stages hr hu ht, hline.nextInput⟩

theorem sourceCycle_of_offered {l : SourceLine} (hc : p.clr = false) (hv : p.inValid = true) : sourceCycle l p =
    { reader := (readerStep l.reader p.inData).1, returned := (readerStep l.reader p.inData).2 } := by
  simp [sourceCycle, hc, hv]

theorem sourceCycle_of_silent {l : SourceLine} (hc : p.clr = false) (hv : p.inValid = false) :
    sourceCycle l p = { l with returned := none } := by
  simp [sourceCycle, hc, hv]

theorem cycleFrames_cons (ht : clock s p = .next t) (ps : List Pins) :
    cycleFrames s (p :: ps) = (emitted t).toList ++ cycleFrames t ps := by
  simp only [cycleFrames, ht]

/-- Over any input cycles without control pins the frames are the reader's on the accepted bytes, cut and marked. -/
theorem cycleFrames_of_tracks (ps : List Pins) (h : Tracks s r) (hps : ∀ p ∈ ps, p.rst = false ∧ p.clr = false) :
    cycleFrames s ps = (readerFrames r (acceptedBytes ps)).map cutFrame := by
  induction ps generalizing s r with
  | nil => rfl
  | cons p ps ih =>
    obtain ⟨⟨hr, hc⟩, hrest⟩ := List.forall_mem_cons.mp hps
    obtain ⟨t, ht, htracks, hemit⟩ := clock_reader h hr
    rw [cycleFrames_cons ht, ih htracks hrest, hemit, acceptedBytes_cons]
    cases hv : p.inValid with
    | true =>
      rw [sourceCycle_of_offered hc hv, acceptedBytes_of_offered hr hc hv, List.singleton_append, readerFrames,
        List.map_append, Option.toList_map]
    | false =>
      rw [sourceCycle_of_silent hc hv, acceptedBytes_of_silent hv]
      rfl

end Sys2Proof.Safety

namespace Sys2Proof.Proofs

open Sys2Proof.Machine Sys2Proof.Safety

/-- Settles O53: both are the frames of the reader that stands where the DEFRAMER stands. -/
theorem cycleFramesAreTransactionFrames : Obligations.CycleFramesAreTransactionFrames := by
  intro s ps hinv hps
  obtain ⟨r, hr⟩ := exists_tracks hinv
  rw [cycleFrames_of_tracks ps hr hps, deframeFrames_of_tracks _ hr]

end Sys2Proof.Proofs
end

section
/-!
PROOFS. One clock cycle (70_reset_and_hazards.md R141 to R148): what a reset leaves, the two stages and the registers they write,
the next input, and a frame's two edges from its marker to its decode.
-/

namespace Sys2Proof.Machine

open Sys2Proof.Safety

/-! ## The stages' registers -/

/-- The decode stage leaves the DEFRAMER, the frame registers and the input side alone (70_reset_and_hazards.md R148). -/
theorem decodeStage_disjoint (s : State) :
    ∃ t, decodeStage s = .next t ∧ SameDeframer s t ∧ SameFrame s t ∧ SameInput s t := by
  obtain ⟨_, _, _, _, h⟩ := decodeStage_next s
  exact ⟨_, h, ⟨rfl, rfl, rfl, rfl⟩, ⟨rfl, rfl, rfl, rfl⟩, rfl, rfl, rfl⟩

/-- The deframer stage of a cycle without reset leaves the DECODER registers and the input side alone
(70_reset_and_hazards.md R148). -/
theorem deframerStage_disjoint (s u : State) (hr : s.pins.rst = false) :
    ∃ t, deframerStage (inputInstr s) u = .next t ∧ SameDecoder u t ∧ SameInput u t := by
  obtain ⟨_, _, _, _, _, _, _, _, h⟩ := deframerStage_next s u hr
  exact ⟨_, h, ⟨rfl, rfl, rfl, rfl⟩, rfl, rfl, rfl⟩

/-- The decode stage runs the operation that the registered frame selects, or clears `dec_done` (70_reset_and_hazards.md
R144). -/
theorem decodeStage_eq_exec (s : State) : decodeStage s =
    if s.frmValid = true then exec (decodeFrame s.frmLen.toNat (frmByte s 1)) s else .next (noDecode s) := by
  unfold decodeStage frameInstr
  split_ifs <;> rfl

/-- A step without reset is the decode stage, the deframer stage and the next input (70_reset_and_hazards.md R144). -/
theorem step_eq_stages {s : State} (hr : s.pins.rst = false) : step s = andThen (decodeStage s) fun t =>
    andThen (deframerStage (inputInstr s) t) fun u => .next (nextInput u) :=
  if_neg (by simp [hr])

/-! ## The next input -/

/-- The pins of the coming cycle are the next entry of the trace (log entry 2). -/
theorem nextInput_of_cons {s : State} {p : Pins} {rest : List Pins} (h : s.trace = p :: rest) :
    nextInput s = { s with pins := p, trace := rest, freeIndex := s.freeIndex + 1 } := by
  simp only [nextInput, h]

/-- When the trace has ended, the coming cycle is idle (log entry 2). -/
theorem nextInput_of_nil {s : State} (h : s.trace = []) :
    nextInput s = { s with pins := idlePins s.freeIndex, freeIndex := s.freeIndex + 1 } := by
  simp only [nextInput, h]

/-- A step without reset puts the next entry of the trace on the pins. -/
theorem step_pins {s t : State} {p : Pins} {rest : List Pins} (hr : s.pins.rst = false) (htrace : s.trace = p :: rest)
    (h : step s = .next t) : t.pins = p := by
  obtain ⟨u, hu, -, -, -, hsu, -⟩ := decodeStage_disjoint s
  obtain ⟨v, hv, -, -, huv, -⟩ := deframerStage_disjoint s u hr
  obtain rfl := Host.Outcome.next.inj ((step_stages hr hu hv).symm.trans h)
  rw [nextInput_of_cons (huv.symm.trans (hsu.symm.trans htrace))]

end Sys2Proof.Machine

namespace Sys2Proof.Proofs

open Sys2Proof.Machine Sys2Proof.Safety

/-- Settles O40: each stage by what it can write. -/
theorem stagesWriteDisjointRegisters : Obligations.StagesWriteDisjointRegisters :=
  fun s u hr => ⟨decodeStage_disjoint s, deframerStage_disjoint s u hr⟩

/-- Settles O43: the marker's step emits the accumulator, and the next one decodes the frame with the next entry's
`cfg_adjust`. -/
theorem decodeFollowsTheMarkerByTwoEdges : Obligations.DecodeFollowsTheMarkerByTwoEdges := by
  intro s p rest hr hc hv hd hpos htrace hp
  obtain ⟨t, ht, hemit⟩ := frameHoldsUntilTheNextEmission s hr
  obtain rfl : t.pins = p := step_pins hr htrace ht
  obtain ⟨u, hu, -, hshort, hlong⟩ := decodeOutcomeFollowsTheFrame t hp
  rcases hemit with ⟨-, -, -, -, hvalid, hlen, hovf, hbuf⟩ | ⟨hnot, -⟩
  · have htype (h1 : 1 < s.accLen.toNat) (hbyte : Memory.read s.acc 1 = some 0x00#8) : frmByte t 1 = 0x00#8 :=
      frmByte_of_read ((hbuf 1 h1).trans hbyte)
    refine ⟨t, u, ht, hu, hvalid, hlen, hovf, hbuf, fun h24 hbyte => ?_, fun h2 h23 hbyte => ?_⟩
    · exact hlong hvalid (htype (by omega) hbyte) (hlen ▸ h24)
    · exact hshort hvalid (htype h2 hbyte) (hlen ▸ h2) (hlen ▸ h23)
  · exact absurd ⟨hc, hv, hd, hpos⟩ hnot

/-- Settles O6: the operation and the reset cycle both leave the reset registers. -/
theorem rstResetsEveryRegister : Obligations.RstResetsEveryRegister := by
  refine ⟨fun _ => rfl, fun s => ⟨⟨_, exec_rst s, ?reset⟩, fun hr => ⟨_, step_rst s hr, ?resetCycle⟩⟩⟩
  case reset => simp [mode_eq_idle_iff]
  case resetCycle => simp [mode_eq_idle_iff]

/-- Settles O37: the reset branch as it stands, the two stages with the operations they select, and the two cases of the
trace. -/
theorem stepRunsTheDecodedOperations : Obligations.StepRunsTheDecodedOperations := by
  refine ⟨fun s hr => if_pos hr, fun s hr => ?_, fun s p rest => nextInput_of_cons, fun s => nextInput_of_nil⟩
  rw [step_eq_stages hr, decodeStage_eq_exec]
  refine congrArg (andThen _) (funext fun t => congrArg (andThen · _) ?_)
  rw [inputInstr]
  cases decodePins s.esc s.pins <;> rfl

end Sys2Proof.Proofs
end

section
/-!
PROOFS. The input pins in a step (70_reset_and_hazards.md R142, R152): a reset reads no other pin, and a cycle without reset reads
the pins only to select its operation, and `cfg_adjust` with a frame registered.
-/

namespace Sys2Proof.Machine

/-- The pins of a cycle do not outlive it. -/
theorem nextInput_setPins (s : State) (p : Pins) : nextInput { s with pins := p } = nextInput s := by
  unfold nextInput
  cases s.trace <;> rfl

/-! ## Which pins a step reads -/

/-- With `rst` high no other pin is read (70_reset_and_hazards.md R142). -/
theorem step_setPins_of_rst {s : State} {p : Pins} (hr : s.pins.rst = true) (hp : p.rst = true) :
    step { s with pins := p } = step s := by
  rw [step_rst s hr, step_rst { s with pins := p } hp]
  exact congrArg _ (nextInput_setPins (resetRegisters s) p)

theorem decodeRun_setPins (view : List Byte) (adjust : Bool) (s : State) (p : Pins) :
    decodeRun view adjust { s with pins := p } = { decodeRun view adjust s with pins := p } := by
  rw [decodeRun_eq, decodeRun_eq]
  split_ifs <;> rfl

/-- Of the pins the decode stage reads `cfg_adjust` alone, and this only with a frame registered (42_channel_decoder.md R112). -/
theorem decodeStage_setPins {s : State} {p : Pins} (h : s.frmValid = false ∨ p.cfgAdjust = s.pins.cfgAdjust) :
    ∃ u, decodeStage s = .next u ∧ decodeStage { s with pins := p } = .next { u with pins := p } := by
  refine ⟨_, decodeStage_eq s, (decodeStage_eq { s with pins := p }).trans ?_⟩
  by_cases hc : ControlFrame s
  · have hadjust : p.cfgAdjust = s.pins.cfgAdjust := h.resolve_left (by simp [hc.1])
    rw [if_pos hc, if_pos (show ControlFrame { s with pins := p } from hc), hadjust]
    exact congrArg _ (decodeRun_setPins (frameView s) s.pins.cfgAdjust s p)
  · rw [if_neg hc, if_neg (show ¬ ControlFrame { s with pins := p } from hc)]
    rfl

theorem append_setPins (v : Byte) (s : State) (p : Pins) :
    append v { s with pins := p } = { append v s with pins := p } := by
  unfold append
  split <;> rfl

/-- A byte operation has its byte as operand and does not look at the pins. -/
theorem exec_byte_setPins (esc : Bool) (d : Byte) (u : State) (p : Pins) : ∃ t, exec (decodeByte esc d) u = .next t ∧
    exec (decodeByte esc d) { u with pins := p } = .next { t with pins := p } := by
  rcases decodeByte_cases esc d with ⟨-, h⟩ | ⟨-, -, -, h⟩ | ⟨-, -, -, h⟩ | ⟨-, -, h⟩ <;> rw [h]
  · rcases Nat.eq_zero_or_pos u.accLen.toNat with hempty | hpos
    · exact ⟨_, exec_marker_of_empty hempty, exec_marker_of_empty (s := { u with pins := p }) hempty⟩
    · exact ⟨_, exec_marker_of_pos hpos, exec_marker_of_pos (s := { u with pins := p }) hpos⟩
  · exact ⟨_, exec_escape u, exec_escape _⟩
  · exact ⟨_, exec_data d u, congrArg (fun t => Host.Outcome.next (noEmission t)) (append_setPins d u p)⟩
  · exact ⟨_, exec_escaped d u,
      congrArg (fun t => Host.Outcome.next (noEmission t)) (append_setPins (unescape d) (setEsc false u) p)⟩

/-- Once its operation is selected, the deframer stage does not look at the pins. -/
theorem deframerStage_setPins (s u : State) (p : Pins) (hr : s.pins.rst = false) :
    ∃ t, deframerStage (inputInstr s) u = .next t ∧
      deframerStage (inputInstr s) { u with pins := p } = .next { t with pins := p } := by
  rcases inputInstr_cases s hr with ⟨hc, -⟩ | ⟨-, -, e⟩ | ⟨hc, hv, -⟩
  · exact ⟨_, deframerStage_of_clr u hr hc, deframerStage_of_clr _ hr hc⟩
  · rw [e]
    exact exec_byte_setPins s.esc s.pins.inData u p
  · exact ⟨_, deframerStage_of_silent u hr hc hv, deframerStage_of_silent _ hr hc hv⟩

/-- A step without reset reads the pins only to select the input operation, and `cfg_adjust` with a frame registered. -/
theorem step_setPins {s : State} {p : Pins} (hr : s.pins.rst = false) (hp : p.rst = false)
    (hinput : decodePins s.esc p = decodePins s.esc s.pins)
    (hadjust : s.frmValid = false ∨ p.cfgAdjust = s.pins.cfgAdjust) : step { s with pins := p } = step s := by
  obtain ⟨u, hu, hu'⟩ := decodeStage_setPins hadjust
  obtain ⟨t, ht, ht'⟩ := deframerStage_setPins s u p hr
  have hsame : inputInstr { s with pins := p } = inputInstr s := congrArg Except.toOption hinput
  rw [step_stages hr hu ht, step_stages (s := { s with pins := p }) hp hu' (hsame ▸ ht'), nextInput_setPins]

end Sys2Proof.Machine

namespace Sys2Proof.Proofs

open Sys2Proof.Machine

/-- Settles O7: a reset reads no other pin; under `clr` the operation is `CLR` whatever byte is offered. -/
theorem controlPinsBeatAnOfferedByte : Obligations.ControlPinsBeatAnOfferedByte := by
  refine ⟨fun s p hr hp => ⟨step_setPins_of_rst hr hp, _, step_rst s hr, by simp⟩, fun s valid d hr hc => ?_⟩
  exact step_setPins hr hr (by simp [decodePins, hc]) (.inr rfl)

/-- Settles O45: a reset reads no other pin, and without a registered frame no stage reads `cfg_adjust`. -/
theorem adjustIsReadOnlyInADecodeCycle : Obligations.AdjustIsReadOnlyInADecodeCycle := by
  intro s b hquiet
  cases hr : s.pins.rst with
  | true => exact step_setPins_of_rst hr hr
  | false => exact step_setPins hr hr rfl (.inl hquiet)

end Sys2Proof.Proofs
end
